-- ==== Sys2Proof/Word.lean ====
section
/-! DEFINITION. The bit vectors of the block's ports and counters (30_encoding.md R50, R56).
All of them number bit 0 as the least significant bit (00_scope.md R11). -/

namespace Sys2Proof

/-- A debounce counter, 8-bit two's complement: COUNTER_W = 8 (R7, R56). -/
abbrev Counter := BitVec 8

/-- A mixer input `linear` or `rot`, 16-bit two's complement (R53). -/
abbrev Axis := BitVec 16

/-- A MotorCommand, 8-bit two's complement with legal values -127 to 127 (R54). -/
abbrev MotorCommand := BitVec 8

/-- `pwm_floor` or a channel value, 32-bit unsigned (R55). -/
abbrev Level := BitVec 32

end Sys2Proof
end

