-- ==== Sys2Proof/Config.lean ====
section
/-! DEFINITION. The build-time configuration of a block and the model's one free value.
What makes a configuration legal is in Machine/Operands.lean. -/

namespace Sys2Proof

/-- RESET_STYLE, an OPEN parameter on which no rule of the step model depends (R9). -/
inductive ResetStyle where
  | synchronous
  | asynchronous
  deriving DecidableEq, Repr

/-- The build-time parameters (R5, R6, R9; R28 says there are no others but COUNTER_W, which is fixed by
R7). Any integer and any count can be written here, legal or not, so that a configuration can be refused
(R141). They stand in State because they are OPEN: a statement over every state holds for every value. -/
structure Config where
  /-- DEBOUNCE_FLOOR (R5). -/
  debounceFloor : Int
  /-- N_INPUTS (R6). -/
  nInputs : Nat
  /-- RESET_STYLE (R9). -/
  resetStyle : ResetStyle
  deriving DecidableEq, Repr

/-- DESIGN CHOICE (log 1): the configuration of `State.reset`, the one 95_test_vectors.md uses for its
vectors ("test choices. The source fixes none of them"). -/
def Config.chosen : Config :=
  { debounceFloor := -3, nInputs := 16, resetStyle := .synchronous }

/-- FREE VALUE (log 2): what the counter of a lane holds at power-up. R32: "Before the first reset the
counters hold no value". Nothing constrains it. -/
opaque Config.powerUpCounter : Nat → Counter

end Sys2Proof
end

