-- ==== Sys2Proof/Syntax.lean ====
section
/-! DEFINITION. The block's operations, one constructor per row of spec/opcode_table.json, the formats of
their operand words, and the values that stand on the ports. -/

namespace Sys2Proof

/-- The operation formats of R57. The block has no opcode field: the format selects the operation (R59).
A DEB word stands on the wire of one lane; the lane is no field of the word (R26). -/
inductive Format where
  | deb (lane : Nat)
  | mix
  | duty
  | poll
  | rst
  deriving DecidableEq, Repr

/-- The operations (00_scope.md R2), with the operands R62's notation gives them. -/
inductive Instr where
  /-- DEB.S1: a debounce step of one lane with an asserted sample (R71). -/
  | debS1 (lane : Nat)
  /-- DEB.S0: a debounce step of one lane with an unasserted sample (R72). -/
  | debS0 (lane : Nat)
  /-- MIX (R90). -/
  | mix (linear rot : Axis)
  /-- DUTY (R110). -/
  | duty (cmd : MotorCommand) (brake : Bool) (pwmFloor : Level)
  /-- POLL (R130); `samples` lists `sample[0]`, `sample[1]`, ... -/
  | poll (samples : List Bool) (linear rot : Axis) (brakeL brakeR : Bool) (pwmFloor : Level)
  /-- RESET (R133). -/
  | reset
  deriving DecidableEq, Repr

/-- The result of a debounce step, `Transition ∈ {Pressed, Released, Unchanged}` (R52). The reserved code
`11` has no value here: it is never driven. -/
inductive Transition where
  | unchanged
  | pressed
  | released
  deriving DecidableEq, Repr

/-- The mixer's two outputs `left` and `right` (R50). -/
structure MotorPair where
  left : MotorCommand
  right : MotorCommand
  deriving DecidableEq, Repr

/-- One mapper's two outputs: `chanA` is the reverse-duty channel, `chanB` the forward-duty channel (R118). -/
structure DutyPair where
  chanA : Level
  chanB : Level
  deriving DecidableEq, Repr

/-- The block's input ports at one clock edge (R50); `samples` lists `sample[0]`, `sample[1]`, ... -/
structure Ports where
  rst : Bool
  pollEn : Bool
  samples : List Bool
  linear : Axis
  rot : Axis
  brakeL : Bool
  brakeR : Bool
  pwmFloor : Level
  deriving DecidableEq, Repr

end Sys2Proof
end

