-- ==== Sys2Proof/WellFormed.lean ====
section
/-! DEFINITION. Which operations are operations of a block with `n` inputs. Whether the VALUES on the ports
are in contract is a separate matter, settled by the meanings (R60, R111): a word with an out-of-contract
value is still a word of its format. -/

namespace Sys2Proof

/-- The lane is one of the block's lanes, and there is one sample for every lane (R26, R50). -/
def Instr.wellFormed (n : Nat) : Instr → Bool
  | .debS1 lane => decide (lane < n)
  | .debS0 lane => decide (lane < n)
  | .mix _ _ => true
  | .duty _ _ _ => true
  | .poll samples _ _ _ _ _ => decide (samples.length = n)
  | .reset => true

end Sys2Proof
end

