-- ==== Sys2Proof/Decode.lean ====
section
/-! DEFINITION. Operand words (30_encoding.md R57): the decoder, total on every number and rejecting by name,
the encoder written from the same tables, and the notation of R62. A word is a number whose bit 0 is bit 0
of the word (R11); the hardware has no bus that carries it (R57), so there are no bytes and no byte order. -/

namespace Sys2Proof

/-- Why a word is no operation. -/
inductive DecodeError where
  /-- The word has a bit above its format's width (R57, R61). -/
  | wordTooWide (f : Format)
  /-- A DEB word on the wire of a lane the block does not have (R26). -/
  | noSuchLane (lane : Nat)
  /-- The RST word 0: "not an operation (no reset)" (R60). -/
  | rstWordZero
  deriving DecidableEq, Repr

/-- `w[lo + width - 1 : lo]`, read unsigned (R11). -/
def bitField (w lo width : Nat) : Nat := w / 2 ^ lo % 2 ^ width

/-- `w[i]`. -/
def bitAt (w i : Nat) : Bool := decide (bitField w i 1 = 1)

/-- The width of a format's word in a block with `n` inputs (R57). -/
def Format.width (n : Nat) : Format → Nat
  | .deb _ => 1
  | .mix => 32
  | .duty => 41
  | .poll => n + 66
  | .rst => 1

/-- The `s` field of a POLL word: bit `i` is `sample[i]`. -/
def sampleBits (n w : Nat) : List Bool := (List.range n).map (bitAt w)

/-- Format MIX: `l` in [15:0], `r` in [31:16]. -/
def decodeMix (w : Nat) : Instr :=
  .mix (BitVec.ofNat 16 (bitField w 0 16)) (BitVec.ofNat 16 (bitField w 16 16))

/-- Format DUTY: `c` in [7:0], `b` in [8], `f` in [40:9]. -/
def decodeDuty (w : Nat) : Instr :=
  .duty (BitVec.ofNat 8 (bitField w 0 8)) (bitAt w 8) (BitVec.ofNat 32 (bitField w 9 32))

/-- Format POLL: `s` in [N-1:0], `l` in [N+15:N], `r` in [N+31:N+16], `b` (brake_l) in [N+32], `B` (brake_r)
in [N+33], `f` in [N+65:N+34]. -/
def decodePoll (n w : Nat) : Instr :=
  .poll (sampleBits n w) (BitVec.ofNat 16 (bitField w n 16)) (BitVec.ofNat 16 (bitField w (n + 16) 16))
    (bitAt w (n + 32)) (bitAt w (n + 33)) (BitVec.ofNat 32 (bitField w (n + 34) 32))

/-- The operation a word of a format stands for in a block with `n` inputs (R59). Words whose VALUES are out of
contract decode to their operation, whose meaning refuses them (R60; log 14). -/
def decode (n : Nat) (f : Format) (w : Nat) : Except DecodeError Instr :=
  if 2 ^ f.width n ≤ w then .error (.wordTooWide f)
  else
    match f with
    | .deb lane =>
      if n ≤ lane then .error (.noSuchLane lane)
      else if bitAt w 0 then .ok (.debS1 lane) else .ok (.debS0 lane)
    | .mix => .ok (decodeMix w)
    | .duty => .ok (decodeDuty w)
    | .poll => .ok (decodePoll n w)
    | .rst => if bitAt w 0 then .ok .reset else .error .rstWordZero

/-- A list of bits as a number, the first one bit 0. -/
def packBits : List Bool → Nat
  | [] => 0
  | b :: bs => b.toNat + 2 * packBits bs

/-- The format and operand word of an operation (R57). -/
def encode : Instr → Format × Nat
  | .debS1 lane => (.deb lane, 1)
  | .debS0 lane => (.deb lane, 0)
  | .mix l r => (.mix, l.toNat + r.toNat * 2 ^ 16)
  | .duty c b f => (.duty, c.toNat + b.toNat * 2 ^ 8 + f.toNat * 2 ^ 9)
  | .poll s l r bl br f =>
    (.poll, packBits s + l.toNat * 2 ^ s.length + r.toNat * 2 ^ (s.length + 16) + bl.toNat * 2 ^ (s.length + 32) +
      br.toNat * 2 ^ (s.length + 33) + f.toNat * 2 ^ (s.length + 34))
  | .reset => (.rst, 1)

/-- The format of a row of opcode_table.json, told from the number of bits the table gives it, in whole bytes
(DEB and RST 8, MIX 32, DUTY 48, POLL 88). DESIGN CHOICE (log 13): DEB.S1 and RESET are the same word of the
same width in two formats, and a bare word does not say which; it is read as a DEB word on lane 0. -/
def tableFormat (nbits : Nat) : Format :=
  if nbits ≤ 8 then .deb 0 else if nbits ≤ 32 then .mix else if nbits ≤ 48 then .duty else .poll

/-- The instruction the decoder reads from a word of opcode_table.json, whose POLL row is "shown for
N_INPUTS = 16". -/
def decodeTableWord (nbits w : Nat) : Option Instr :=
  (decode 16 (tableFormat nbits) w).toOption

/-- R62's pseudo-operation `NEUTRAL <fl>`, in a block with `n` inputs. -/
def neutral (n : Nat) (pwmFloor : Level) : Instr :=
  .poll (List.replicate n false) 0 0 false false pwmFloor

/-- R62's pseudo-operation `REPEAT <k>, <line>`. -/
def repeatLine (k : Nat) (line : Instr) : List Instr := List.replicate k line

/-- One binary digit. -/
def bitText (b : Bool) : String := if b then "1" else "0"

/-- R62's notation of an operation. -/
def Instr.text : Instr → String
  | .debS1 lane => "DEB " ++ toString lane ++ ", 1"
  | .debS0 lane => "DEB " ++ toString lane ++ ", 0"
  | .mix l r => "MIX " ++ toString l.toInt ++ ", " ++ toString r.toInt
  | .duty c b f => "DUTY " ++ toString c.toInt ++ ", " ++ bitText b ++ ", " ++ toString f.toNat
  | .poll s l r bl br f =>
    "POLL s=" ++ String.join (s.reverse.map bitText) ++ ", lin=" ++ toString l.toInt ++ ", rot=" ++ toString r.toInt ++
      ", bl=" ++ bitText bl ++ ", br=" ++ bitText br ++ ", fl=" ++ toString f.toNat
  | .reset => "RESET"

end Sys2Proof
end

