-- ==== Sys2Proof/Machine/State.lean ====
section
/-! DEFINITION. The state of the block, what can stop a step, and the state right after reset. -/

namespace Sys2Proof.Machine

/-- What the spec calls a fault (60_exceptions.md R142). -/
inductive Fault where
  /-- Raised by DEB and POLL before the first RESET (R32, R142, R143). Safe: the machine stops where R32 says
  the counters hold no value. -/
  | notReset
  deriving DecidableEq, Repr

/-- Inputs and configurations the model gives no meaning (60_exceptions.md R141). All of them are safe: nothing
can be proved of a run that meets one. -/
inductive Refusal where
  /-- Raised by `exec`'s arm of an instruction that has no meaning in the model yet. Safe. -/
  | notModelled (mnemonic : String)
  /-- `BadFloor`: raised by every operation of a block whose DEBOUNCE_FLOOR is even, 0 or more, or below -127
  (R5, R141). Safe. -/
  | badFloor
  /-- `BadInputCount`: raised by every operation of a block whose N_INPUTS is 0 (R6, R141). Safe. -/
  | badInputCount
  /-- `CounterOutOfRange`: raised by DEB and POLL on a counter outside [F, 1] (R74). Safe. -/
  | counterOutOfRange
  /-- `CmdOutOfRange`: raised by DUTY on the command -128 (R111). Safe. -/
  | cmdOutOfRange
  /-- `PwmFloorOutOfRange`: raised by DUTY and POLL on `pwm_floor` above 0xFFFFFF80 (R111, R130). Safe. -/
  | pwmFloorOutOfRange
  /-- The model's own (log 11): raised by DEB on a lane the block does not have. Safe. -/
  | noSuchLane
  /-- The model's own (log 12): raised by POLL when there is not one sample and one counter for every lane.
  Safe. -/
  | laneMismatch
  /-- The model's own (logs 15, 16): raised by the step on a word that is no operation of its format. Safe. -/
  | undecodable (e : DecodeError)
  deriving DecidableEq, Repr

/-- The output ports (R50) as one step drives them; `none` where the operation drives or observes no such
port. -/
structure Outputs where
  /-- `trans[0]`, `trans[1]`, ... -/
  trans : List (Option Transition)
  left : Option MotorCommand
  right : Option MotorCommand
  /-- `chan_a` and `chan_b` of a mapper used alone. -/
  chan : Option DutyPair
  /-- `duty_l_a` and `duty_l_b`. -/
  dutyL : Option DutyPair
  /-- `duty_r_a` and `duty_r_b`. -/
  dutyR : Option DutyPair
  deriving DecidableEq, Repr

/-- No port driven (R160: reset "drives no step outputs"). -/
def Outputs.undriven : Outputs :=
  { trans := [], left := none, right := none, chan := none, dutyL := none, dutyR := none }

/-- What the environment presents to the block (R150): an operation's operand word (R57), or, in a clocked
realization, one clock edge with all input ports (R134). -/
inductive Presented where
  | word (f : Format) (w : Nat)
  | edge (p : Ports)
  deriving DecidableEq, Repr

/-- The state. `cfg`, `cnt`, `resetDone`, `faultRecord` and `refusalMark` are the spec's; `out` and `pending` are
the model's own (logs 4, 6). -/
structure State where
  /-- The build-time configuration; no operation writes it (R28, R170). -/
  cfg : Config
  /-- `cnt[0]`, `cnt[1]`, ... (R20). -/
  cnt : List Counter
  /-- `reset_done` (R32, R133). -/
  resetDone : Bool
  /-- The recorded fault (R142). -/
  faultRecord : Option Fault
  /-- The refusal mark, with its reason (R141). -/
  refusalMark : Option Refusal
  /-- The outputs of the last step. No operation reads them (R30). -/
  out : Outputs
  /-- What the environment presents next, oldest first (R45, R150). -/
  pending : List Presented
  deriving DecidableEq, Repr

/-- The state right after reset of a block with configuration `c` (R31, R161). -/
def State.afterReset (c : Config) : State :=
  { cfg := c
    cnt := List.replicate c.nInputs 0
    resetDone := true
    faultRecord := none
    refusalMark := none
    out := Outputs.undriven
    pending := [] }

/-- The machine right after reset; its configuration is a DESIGN CHOICE (log 1). -/
def State.reset : State := State.afterReset Config.chosen

/-- A block at power-up, before its first reset (R32): the counters hold free values (log 2). -/
def State.powerUp (c : Config) : State :=
  { State.afterReset c with
    cnt := (List.range c.nInputs).map Config.powerUpCounter
    resetDone := false }

end Sys2Proof.Machine
end

