-- ==== Sys2Proof/Machine/Operands.lean ====
section
/-! DEFINITION. How operands are read and which values are in contract. Arithmetic is on mathematical integers
(00_scope.md R11): a port value is read signed or unsigned first, and narrowed once at the end. -/

namespace Sys2Proof

/-- The 2-bit code on `trans[i]` (R52). -/
def Transition.code : Transition → BitVec 2
  | .unchanged => 0b00#2
  | .pressed => 0b01#2
  | .released => 0b10#2

/-- A legal DEBOUNCE_FLOOR "is odd and lies in [-127, -1]" (R5). -/
abbrev Config.FloorLegal (c : Config) : Prop :=
  c.debounceFloor % 2 = 1 ∧ -127 ≤ c.debounceFloor ∧ c.debounceFloor ≤ -1

/-- "A configuration with N_INPUTS = 0 is refused" (R6). -/
abbrev Config.CountLegal (c : Config) : Prop := 0 < c.nInputs

/-- A configuration that has a machine (R141). -/
abbrev Config.Legal (c : Config) : Prop := c.FloorLegal ∧ c.CountLegal

namespace Machine

/-- `clamp(v, lo, hi) = min(max(v, lo), hi)` (R11). -/
def clamp (v lo hi : Int) : Int := min (max v lo) hi

/-- A mixer input, read signed and clamped to [-127, 127] (R53, R91). -/
def clampAxis (v : Axis) : Int := clamp v.toInt (-127) 127

/-- `mag = abs(cmd)` (R113). -/
def magnitude (cmd : MotorCommand) : Nat := cmd.toInt.natAbs

/-- The counter is in [F, 1] (R21, R74). -/
abbrev CounterInRange (F : Int) (c : Counter) : Prop := F ≤ c.toInt ∧ c.toInt ≤ 1

/-- A command other than -128 (R54, R111). -/
abbrev CmdInContract (cmd : MotorCommand) : Prop := cmd.toInt ≠ -128

/-- `pwm_floor` at most 0xFFFFFF80 (R55, R111). -/
abbrev FloorInContract (f : Level) : Prop := f.toNat ≤ 0xFFFFFF80

end Machine

/-- The values an operation's ports carry are in contract (R60). -/
def Instr.inContract : Instr → Bool
  | .debS1 _ => true
  | .debS0 _ => true
  | .mix _ _ => true
  | .duty cmd _ f => decide (Machine.CmdInContract cmd) && decide (Machine.FloorInContract f)
  | .poll _ _ _ _ _ f => decide (Machine.FloorInContract f)
  | .reset => true

/-- The operations that are steps of debounce lanes: they fault before the first reset (R142). -/
def Instr.stepsLanes : Instr → Bool
  | .debS1 _ => true
  | .debS0 _ => true
  | .mix _ _ => false
  | .duty _ _ _ => false
  | .poll _ _ _ _ _ _ => true
  | .reset => false

end Sys2Proof
end

