-- ==== Sys2Proof/Machine/Flags.lean ====
section
/-! DEFINITION. The block has no status flags and no condition codes; the mixer's saturation test and the mapper's
case selection "are internal to one step and leave nothing behind" (10_state.md R27). They are here. -/

namespace Sys2Proof.Machine

/-- The saturation shift `adj` of R93: four conditions in a fixed order, the first that holds sets it. -/
def saturationShift (l r : Int) : Int :=
  if l > 127 then l - 127
  else if l < -127 then l + 127
  else if r > 127 then r - 127
  else if r < -127 then r + 127
  else 0

/-- The mapper's four cases (R112). -/
inductive DutyCase where
  | coast
  | brake
  | reverse
  | forward
  deriving DecidableEq, Repr

/-- The case of a command and a brake flag (R112): the brake counts only at command 0. -/
def dutyCase (cmd : MotorCommand) (brake : Bool) : DutyCase :=
  if cmd.toInt = 0 then (if brake then .brake else .coast)
  else if cmd.toInt < 0 then .reverse
  else .forward

end Sys2Proof.Machine
end

