-- ==== Sys2Proof/Machine/Ops.lean ====
section
/-! DEFINITION. The named operations over the state that the meanings share. The block has no memory (20_memory.md
R40) and takes no exceptions (60_exceptions.md R140, R145), so there are none for those; what stands in the place
of an exception is the record of a fault (R142) and the refusal mark (R141). -/

namespace Sys2Proof.Machine

/-- What a step answers. -/
abbrev Result := Host.Outcome State Fault Refusal

/-- Why a configuration has no machine, in the order of R143's first item. -/
def configRefusal (c : Config) : Option Refusal :=
  if ¬ c.FloorLegal then some .badFloor
  else if ¬ c.CountLegal then some .badInputCount
  else none

/-- "A refused configuration has no machine at all: no reset and no step" (R141). -/
def onMachine (s : State) (k : Result) : Result :=
  match configRefusal s.cfg with
  | some r => .refused r
  | none => k

/-- A step of debounce lanes before the first reset is the `NotReset` fault (R142). -/
def onceReset (s : State) (k : Result) : Result :=
  if s.resetDone then k else .fault .notReset

/-- Building a block with a configuration (R162 step 1, R170): it "starts un-reset", or is refused (R141). -/
def build (c : Config) : Result :=
  onMachine (State.powerUp c) (.next (State.powerUp c))

/-- `cnt[lane]`, where the block has such a lane (R12, R26). -/
def State.readCounter (s : State) (lane : Nat) : Option Counter :=
  if lane < s.cfg.nInputs then s.cnt[lane]? else none

/-- `cnt[lane] <- v` (R12). -/
def State.writeCounter (s : State) (lane : Nat) (v : Counter) : State :=
  { s with cnt := s.cnt.set lane v }

/-- The end of a step: every counter takes its next value (R22). -/
def State.writePanel (s : State) (next : List Counter) : State :=
  { s with cnt := next }

/-- `for i in 0 .. N_INPUTS-1: cnt[i] <- 0` (R31), and the record that a reset has happened (R32, R133). -/
def State.clearCounters (s : State) : State :=
  { s with cnt := List.replicate s.cfg.nInputs 0, resetDone := true }

/-- `port <- v` for the ports of one step (R12). -/
def State.drive (s : State) (o : Outputs) : State := { s with out := o }

/-- The same state with other things still to be presented. -/
def State.withPending (s : State) (ps : List Presented) : State := { s with pending := ps }

/-- `trans[lane]` as the last step drove it. -/
def Outputs.transAt (o : Outputs) (lane : Nat) : Option Transition := o.trans[lane]?.join

/-- One lane's Transition, no other port observed (R136; log 10). -/
def Outputs.ofLane (n lane : Nat) (t : Transition) : Outputs :=
  { Outputs.undriven with trans := (List.replicate n none).set lane (some t) }

/-- The mixer's outputs alone. -/
def Outputs.ofMix (m : MotorPair) : Outputs :=
  { Outputs.undriven with left := some m.left, right := some m.right }

/-- The outputs of a mapper used alone (R50). -/
def Outputs.ofDuty (d : DutyPair) : Outputs := { Outputs.undriven with chan := some d }

/-- The whole block's outputs in one step (R130). -/
def Outputs.ofPoll (ts : List Transition) (m : MotorPair) (dutyL dutyR : DutyPair) : Outputs :=
  { trans := ts.map some
    left := some m.left
    right := some m.right
    chan := none
    dutyL := some dutyL
    dutyR := some dutyR }

/-- Recording a fault: the record, once made, stays (R142). No port is driven, since no step took place. -/
def State.recordFault (s : State) (f : Fault) : State :=
  { s with faultRecord := s.faultRecord.or (some f), out := Outputs.undriven, pending := s.pending.tail }

/-- Setting the refusal mark, "that every later state keeps" (R141). No port is driven (R130: "no output is
defined"). -/
def State.recordRefusal (s : State) (r : Refusal) : State :=
  { s with refusalMark := s.refusalMark.or (some r), out := Outputs.undriven, pending := s.pending.tail }

end Sys2Proof.Machine
end

