-- ==== Sys2Proof/Machine/Debounce.lean ====
section
/-! DEFINITION. The debounce state machine (40_debounce.md). `F` is DEBOUNCE_FLOOR, `c` the lane's counter before
the step. -/

namespace Sys2Proof.Machine

/-- R71: an asserted sample. Every asserted sample sets the counter to 1. -/
def assertedStep (c : Counter) : Transition × Counter :=
  if c.toInt < 1 then (.pressed, 1) else (.unchanged, 1)

/-- R72: an unasserted sample. The decrement happens only above the floor, so Released fires once. -/
def unassertedStep (F : Int) (c : Counter) : Transition × Counter :=
  if F < c.toInt then
    (if c.toInt - 1 = F then .released else .unchanged, BitVec.ofInt 8 (c.toInt - 1))
  else (.unchanged, BitVec.ofInt 8 F)

/-- One debounce step of one lane (R70): the transition and the next counter, or nothing for a counter outside
[F, 1] (R74). -/
def laneStep (F : Int) (c : Counter) (sample : Bool) : Option (Transition × Counter) :=
  if CounterInRange F c then some (if sample then assertedStep c else unassertedStep F c) else none

/-- One step of every lane, in index order (R76). -/
def panelStep (F : Int) : List Counter → List Bool → Except Refusal (List (Transition × Counter))
  | [], [] => .ok []
  | c :: cs, b :: bs =>
    match laneStep F c b, panelStep F cs bs with
    | some r, .ok rs => .ok (r :: rs)
    | none, _ => .error .counterOutOfRange
    | _, .error e => .error e
  | _, _ => .error .laneMismatch

/-- Successive steps of one lane, one sample a step: the transitions, in order, and the last counter. -/
def laneRun (F : Int) : Counter → List Bool → Option (List Transition × Counter)
  | c, [] => some ([], c)
  | c, b :: bs =>
    match laneStep F c b with
    | none => none
    | some (t, c') => (laneRun F c' bs).map fun r => (t :: r.1, r.2)

/-- A debounce step of one lane alone (R136): it reads and writes that lane only (R73). -/
def debounceLane (lane : Nat) (sample : Bool) (s : State) : Result :=
  onMachine s <| onceReset s <|
    match s.readCounter lane with
    | none => .refused .noSuchLane
    | some c =>
      match laneStep s.cfg.debounceFloor c sample with
      | none => .refused .counterOutOfRange
      | some (t, c') => .next ((s.writeCounter lane c').drive (Outputs.ofLane s.cfg.nInputs lane t))

/-- DEB.S1 (R71). -/
def execDebS1 (lane : Nat) (s : State) : Result := debounceLane lane true s

/-- DEB.S0 (R72). -/
def execDebS0 (lane : Nat) (s : State) : Result := debounceLane lane false s

end Sys2Proof.Machine
end

