-- ==== Sys2Proof/Machine/Mixer.lean ====
section
/-! DEFINITION. The differential-drive mixer (41_mixer.md). It holds no state (10_state.md R29). -/

namespace Sys2Proof.Machine

/-- R90: clamp (R91), mix (R92), one saturation shift (R93, R94), negate the right output (R95), narrow (R96). -/
def mix (linear rot : Axis) : MotorPair :=
  let lin := clampAxis linear
  let ro := clampAxis rot
  let l := lin - ro
  let r := lin + ro
  let adj := saturationShift l r
  { left := BitVec.ofInt 8 (l - adj), right := BitVec.ofInt 8 (-(r - adj)) }

/-- MIX (R90). It needs no reset and writes no state (R101, R142). -/
def execMix (linear rot : Axis) (s : State) : Result :=
  onMachine s (.next (s.drive (Outputs.ofMix (mix linear rot))))

end Sys2Proof.Machine
end

