-- ==== Sys2Proof/Machine/OutputMapper.lean ====
section
/-! DEFINITION. The PWM motor output mapper (42_output_mapper.md). It holds no state (10_state.md R29). -/

namespace Sys2Proof.Machine

/-- `pwm_floor + v` on a 32-bit channel; in contract it fits (R110, R111). -/
def channelLevel (pwmFloor : Level) (v : Nat) : Level := BitVec.ofNat 32 (pwmFloor.toNat + v)

/-- The duty pair of an in-contract input, by case (R114 to R117). -/
def dutyPair (cmd : MotorCommand) (brake : Bool) (pwmFloor : Level) : DutyPair :=
  match dutyCase cmd brake with
  | .coast => { chanA := 0, chanB := 0 }
  | .brake => { chanA := channelLevel pwmFloor 127, chanB := channelLevel pwmFloor 127 }
  | .reverse => { chanA := channelLevel pwmFloor (magnitude cmd), chanB := 0 }
  | .forward => { chanA := 0, chanB := channelLevel pwmFloor (magnitude cmd) }

/-- R110: the contract checks (R111), the command first (R143), then the case. -/
def toDuty (cmd : MotorCommand) (brake : Bool) (pwmFloor : Level) : Except Refusal DutyPair :=
  if ¬ CmdInContract cmd then .error .cmdOutOfRange
  else if ¬ FloorInContract pwmFloor then .error .pwmFloorOutOfRange
  else .ok (dutyPair cmd brake pwmFloor)

/-- DUTY (R110). It needs no reset and writes no state (R121, R142). -/
def execDuty (cmd : MotorCommand) (brake : Bool) (pwmFloor : Level) (s : State) : Result :=
  onMachine s <|
    match toDuty cmd brake pwmFloor with
    | .error r => .refused r
    | .ok d => .next (s.drive (Outputs.ofDuty d))

end Sys2Proof.Machine
end

