-- ==== Sys2Proof/Machine/CoreStep.lean ====
section
/-! DEFINITION. The whole block's step and reset (43_core_step.md), and one clock edge of a clocked realization
(R134, R135). -/

namespace Sys2Proof.Machine

/-- POLL (R130): every lane, the mixer, and a mapper on each of its outputs (R131), all on one step's inputs; the
counters are written at the end (R22). An out-of-contract `pwm_floor` refuses the whole step. -/
def execPoll (samples : List Bool) (linear rot : Axis) (brakeL brakeR : Bool) (pwmFloor : Level) (s : State) :
    Result :=
  onMachine s <| onceReset s <|
    if ¬ FloorInContract pwmFloor then .refused .pwmFloorOutOfRange
    else if samples.length ≠ s.cfg.nInputs then .refused .laneMismatch
    else
      match panelStep s.cfg.debounceFloor s.cnt samples with
      | .error r => .refused r
      | .ok lanes =>
        let m := mix linear rot
        match toDuty m.left brakeL pwmFloor, toDuty m.right brakeR pwmFloor with
        | .ok dl, .ok dr =>
          .next ((s.writePanel (lanes.map Prod.snd)).drive (Outputs.ofPoll (lanes.map Prod.fst) m dl dr))
        | .error r, _ => .refused r
        | _, .error r => .refused r

/-- RESET (R133): every counter becomes 0 and a reset has happened. It is no step and drives no step outputs
(R160); a recorded fault and the refusal mark stay (R141, R142). -/
def execReset (s : State) : Result :=
  onMachine s (.next (s.clearCounters.drive Outputs.undriven))

/-- The outputs of a clock edge at which no step takes place (R134): every `trans[i]` reads 00, the mixer and the
mappers follow their inputs. A mapper whose input is out of contract has no value (R111; log 18). -/
def restingOutputs (n : Nat) (p : Ports) : Outputs :=
  let m := mix p.linear p.rot
  { trans := List.replicate n (some .unchanged)
    left := some m.left
    right := some m.right
    chan := none
    dutyL := (toDuty m.left p.brakeL p.pwmFloor).toOption
    dutyR := (toDuty m.right p.brakeR p.pwmFloor).toOption }

/-- A clock edge with `rst = 1` (R133, R135): the reset, whatever `poll_en` is, and no step. -/
def resetEdge (p : Ports) (s : State) : Result :=
  onMachine s (.next (s.clearCounters.drive (restingOutputs s.cfg.nInputs p)))

/-- A clock edge with `rst = 0` and `poll_en = 0` (R134): the counters hold. -/
def idleEdge (p : Ports) (s : State) : Result :=
  onMachine s (.next (s.drive (restingOutputs s.cfg.nInputs p)))

/-- One clock edge (R134, R135). -/
def clockEdge (p : Ports) (s : State) : Result :=
  if p.rst then resetEdge p s
  else if p.pollEn then execPoll p.samples p.linear p.rot p.brakeL p.brakeR p.pwmFloor s
  else idleEdge p s

/-- The environment presents nothing (R150: it may "wait any time between steps"): the counters hold (R153) and
nothing is observed (log 5). -/
def awaitEnvironment (s : State) : Result := onMachine s (.next (s.drive Outputs.undriven))

/-- A word that is no operation of its format (R59, R60). -/
def rejectWord (e : DecodeError) (s : State) : Result := onMachine s (.refused (.undecodable e))

end Sys2Proof.Machine
end

