-- ==== Sys2Proof/Machine/Dispatch.lean ====
section
/-! DEFINITION. The meaning of every operation, one arm per constructor. -/

namespace Sys2Proof.Machine

def exec (i : Instr) (s : State) : Host.Outcome State Fault Refusal :=
  match i with
  -- DEB.S1 (R71)
  | .debS1 lane => Sys2Proof.Machine.execDebS1 lane s
  -- DEB.S0 (R72)
  | .debS0 lane => Sys2Proof.Machine.execDebS0 lane s
  -- MIX (R90)
  | .mix linear rot => Sys2Proof.Machine.execMix linear rot s
  -- DUTY (R110)
  | .duty cmd brake pwmFloor => Sys2Proof.Machine.execDuty cmd brake pwmFloor s
  -- POLL (R130)
  | .poll samples linear rot brakeL brakeR pwmFloor => Sys2Proof.Machine.execPoll samples linear rot brakeL brakeR pwmFloor s
  -- RESET (R133)
  | .reset => Sys2Proof.Machine.execReset s

end Sys2Proof.Machine
end

