-- ==== Sys2Proof/Machine/Step.lean ====
section
/-! DEFINITION. One step of the machine: the block takes the next thing the environment presents. The block has no
program counter and fetches nothing (10_state.md R25); `pending` is the model's list of what its input ports will
carry (log 4). -/

namespace Sys2Proof.Machine

/-- The next presented word or clock edge is taken off the list and done. -/
def step (s : State) : Host.Outcome State Fault Refusal :=
  match s.pending with
  | [] => awaitEnvironment s
  | .edge p :: rest => clockEdge p (s.withPending rest)
  | .word f w :: rest =>
    match decode s.cfg.nInputs f w with
    | .ok i => exec i (s.withPending rest)
    | .error e => rejectWord e (s.withPending rest)

/-- The state in which the environment presents a word of opcode_table.json next, whatever it presents after
(log 13 says which format a bare word has). -/
def State.withFetchWord (s : State) (nbits w : Nat) : State :=
  { s with pending := .word (tableFormat nbits) w :: s.pending }

end Sys2Proof.Machine
end

