-- ==== Sys2Proof/Machine/Run.lean ====
section
/-! DEFINITION. Runs (60_exceptions.md R154). `step` stops at a fault or a refusal; the spec's model records it and
goes on (R141, R142; log 7). `advance` is that: a total step that keeps the record. -/

namespace Sys2Proof.Machine

/-- The next state an outcome holds, if it holds one. -/
def nextOf : Result → Option State
  | .next s => some s
  | .fault _ => none
  | .refused _ => none

/-- The fault an outcome holds, if it holds one. -/
def faultOf : Result → Option Fault
  | .next _ => none
  | .fault f => some f
  | .refused _ => none

/-- The refusal an outcome holds, if it holds one. -/
def refusalOf : Result → Option Refusal
  | .next _ => none
  | .fault _ => none
  | .refused r => some r

/-- A step, or the record of why it did not take place. -/
def advance (s : State) : State :=
  match step s with
  | .next s' => s'
  | .fault f => s.recordFault f
  | .refused r => s.recordRefusal r

/-- `k` steps. -/
def advanceN : Nat → State → State
  | 0, s => s
  | k + 1, s => advanceN k (advance s)

/-- The observation of a run of `k` steps (R154): the outputs step by step. The refusal mark and the fault record
are read in the state the run ends in. -/
def observe : Nat → State → List Outputs
  | 0, _ => []
  | k + 1, s => (advance s).out :: observe k (advance s)

/-- The debounce step of one lane on one sample, as an operation (R70). -/
def laneOp (lane : Nat) (sample : Bool) : Instr := if sample then .debS1 lane else .debS0 lane

/-- The debounce steps of the lanes from `lane` on, one sample each, in index order (R76). -/
def laneOps : Nat → List Bool → List Instr
  | _, [] => []
  | lane, b :: bs => laneOp lane b :: laneOps (lane + 1) bs

/-- Operations done one after the other, stopping at the first that does not complete. -/
def execAll : List Instr → State → Result
  | [], s => .next s
  | i :: is, s =>
    match exec i s with
    | .next s' => execAll is s'
    | .fault f => .fault f
    | .refused r => .refused r

/-- What the environment presents for an operation. -/
def presentInstr (i : Instr) : Presented := .word (encode i).1 (encode i).2

end Sys2Proof.Machine
end

