-- ==== Sys2Proof/Safety.lean ====
section
/-! DEFINITION. What a claim may take for granted and what counts as a good state. -/

namespace Sys2Proof.Machine

/-- The invariant of R21 and R20: a legal configuration, one counter for every lane, and after a reset every counter
in [F, 1]. -/
structure State.Inv (s : State) : Prop where
  legal : s.cfg.Legal
  lanes : s.cnt.length = s.cfg.nInputs
  range : s.resetDone = true → ∀ c ∈ s.cnt, CounterInRange s.cfg.debounceFloor c

/-- "A claim that speaks of a run takes "no refusal and no fault recorded" as a premise" (R154). -/
def State.Clean (s : State) : Prop := s.faultRecord = none ∧ s.refusalMark = none

/-- A signed command in [-127, 127] (R54). -/
def CommandInRange (v : Int) : Prop := -127 ≤ v ∧ v ≤ 127

/-- Every MotorCommand the ports carry is in [-127, 127] (R54, R97). -/
def Outputs.CommandsInRange (o : Outputs) : Prop :=
  (∀ c, o.left = some c → CommandInRange c.toInt) ∧ (∀ c, o.right = some c → CommandInRange c.toInt)

/-- What the environment presents is in contract for a block with `n` inputs (R150, R162): a word of an in-contract
operation of the block, or a clock edge with a sample for every lane and `pwm_floor` in contract. -/
def Presented.InContract (n : Nat) : Presented → Prop
  | .word f w => ∃ i, decode n f w = .ok i ∧ i.inContract = true
  | .edge p => p.samples.length = n ∧ FloorInContract p.pwmFloor

/-- What is presented is a step of debounce lanes: DEB, POLL, or a clock edge at which a step takes place (R134). -/
def Presented.StepsLanes (n : Nat) : Presented → Prop
  | .word f w => ∃ i, decode n f w = .ok i ∧ i.stepsLanes = true
  | .edge p => p.rst = false ∧ p.pollEn = true

/-- The environment ties every `pwm_floor` it presents to the configuration value PWM_MIN (R8). -/
def FloorTied (pwmMin : Level) (s : State) : Prop :=
  ∀ p ∈ s.pending,
    match p with
    | .edge q => q.pwmFloor = pwmMin
    | .word f w =>
      match decode s.cfg.nInputs f w with
      | .ok (.duty _ _ fl) => fl = pwmMin
      | .ok (.poll _ _ _ _ _ fl) => fl = pwmMin
      | _ => True

/-- The states a block with configuration `c` can be in: from power-up, by steps, with the environment free to
present anything at any time (R45, R150). -/
inductive Reachable (c : Config) : State → Prop where
  | powerUp : Reachable c (State.powerUp c)
  | present (s : State) (ps : List Presented) : Reachable c s → Reachable c (s.withPending ps)
  | advance (s : State) : Reachable c s → Reachable c (Machine.advance s)

end Sys2Proof.Machine
end

