-- ==== Sys2Proof/Certificates/Slice0/Obligations.lean ====
section
/-! DEFINITION. The statements about the block that the provers settle. Each docstring names the sentence or rule of
the spec it formalises. `F` is DEBOUNCE_FLOOR. Every statement holds for every configuration, legal unless it says
otherwise. -/

open Sys2Proof Sys2Proof.Machine

/-! ## Encoding -/

/-- Decoding the word of a well-formed operation gives it back, with every operand at every value (R57). -/
def Obligations.DecodeOfEncode : Prop :=
  ∀ (n : Nat) (i : Instr), i.wellFormed n = true → decode n (encode i).1 (encode i).2 = .ok i

/-- Every word of a format that decodes is the word of the operation it decodes to, which is well formed: no two
words of one format stand for the same operation (R57, R61). -/
def Obligations.EncodeOfDecode : Prop :=
  ∀ (n : Nat) (f : Format) (w : Nat) (i : Instr), decode n f w = .ok i →
    encode i = (f, w) ∧ i.wellFormed n = true

/-- Which words decode, to which operation, and how every other word is rejected (R59, R60). R59 selects DUTY and POLL
for in-contract words; that a word with an out-of-contract value decodes to them as well, to be refused by their
meanings, is log 14. The rejection of a word wider than its format is read from R57 (log 15), that of a lane the block
does not have is the model's (log 11); the RST word 0 is "not an operation" (R60). -/
def Obligations.DecodeAcceptsExactly : Prop :=
  ∀ (n w : Nat),
    (∀ lane, (∃ i, decode n (.deb lane) w = .ok i) ↔ lane < n ∧ w < 2) ∧
    (∀ lane : Nat, lane < n → decode n (.deb lane) 1 = .ok (.debS1 lane) ∧ decode n (.deb lane) 0 = .ok (.debS0 lane)) ∧
    (∀ lane : Nat, 2 ≤ w → decode n (.deb lane) w = .error (.wordTooWide (.deb lane))) ∧
    (∀ lane : Nat, n ≤ lane → w < 2 → decode n (.deb lane) w = .error (.noSuchLane lane)) ∧
    (w < 2 ^ 32 → ∃ l r, decode n .mix w = .ok (.mix l r)) ∧
    (2 ^ 32 ≤ w → decode n .mix w = .error (.wordTooWide .mix)) ∧
    (w < 2 ^ 41 → ∃ c b f, decode n .duty w = .ok (.duty c b f)) ∧
    (2 ^ 41 ≤ w → decode n .duty w = .error (.wordTooWide .duty)) ∧
    (w < 2 ^ (n + 66) → ∃ s l r bl br f, decode n .poll w = .ok (.poll s l r bl br f)) ∧
    (2 ^ (n + 66) ≤ w → decode n .poll w = .error (.wordTooWide .poll)) ∧
    decode n .rst 1 = .ok .reset ∧ decode n .rst 0 = .error .rstWordZero ∧
    (2 ≤ w → decode n .rst w = .error (.wordTooWide .rst))

/-- Words written out from R57's tables (the examples of R58 and of 95_test_vectors.md) decode to what they stand
for. -/
def Obligations.TableWordsDecode : Prop :=
  decode 16 (.deb 3) 1 = .ok (.debS1 3) ∧ decode 16 (.deb 3) 0 = .ok (.debS0 3) ∧
  decode 16 .mix 0x00500064 = .ok (.mix 100 80) ∧
  decode 16 .mix 0xFF810081 = .ok (.mix 129 (-127)) ∧
  decode 16 .duty 0x000000064DF = .ok (.duty (-33) false 50) ∧
  decode 16 .duty 0x1FFFFFF0100 = .ok (.duty 0 true 0xFFFFFF80) ∧
  decode 16 .poll 0x0000000CB000000000010 =
    .ok (.poll ((List.replicate 16 false).set 4 true) 0 0 true true 50) ∧
  decode 16 .poll 0x0000000C8005000640010 =
    .ok (.poll ((List.replicate 16 false).set 4 true) 100 80 false false 50) ∧
  decode 16 .rst 1 = .ok .reset

/-! ## A step and a clock edge -/

/-- A step does what the next presented word stands for, in the state without that word. The model's own: that presented
words stand in a list (log 4); and that a word which decodes to nothing is refused as `undecodable`, a name outside
R141's closed list (log 16), which words those are resting on logs 11 and 15 beside R60. -/
def Obligations.StepRunsDecodedWord : Prop :=
  ∀ (s : State) (f : Format) (w : Nat) (rest : List Presented), s.pending = .word f w :: rest →
    (∀ i, decode s.cfg.nInputs f w = .ok i → step s = exec i { s with pending := rest }) ∧
    (∀ e, decode s.cfg.nInputs f w = .error e → s.cfg.Legal → step s = .refused (.undecodable e))

/-- R135, and the same without it: at an edge with `rst = 1`, whatever `poll_en` is, the reset takes place and no step:
every counter is 0 (R133), whatever the samples are. That the model has clock edges is log 17, what the outputs show at
such an edge is `ResetEdgeOutputs`. -/
def Obligations.ResetWinsOverPoll : Prop :=
  ∀ (s : State) (p : Ports) (rest : List Presented), s.cfg.Legal → s.pending = .edge p :: rest →
    p.rst = true →
    ∃ t, step s = .next t ∧
      t = { s with cnt := List.replicate s.cfg.nInputs 0, resetDone := true, pending := rest, out := t.out } ∧
      (∀ lane : Nat, t.out.transAt lane ≠ some Transition.pressed ∧ t.out.transAt lane ≠ some Transition.released)

/-- What the ports show at an edge with `rst = 1`, whatever `poll_en` is: every lane reads Unchanged, the mixer and, for an
in-contract `pwm_floor`, the mappers follow their inputs. Read from R160, R161 and R134 together (log 21); that the model
has clock edges is log 17, and that an out-of-contract `pwm_floor` leaves the duties without a value is log 18. -/
def Obligations.ResetEdgeOutputs : Prop :=
  ∀ (s : State) (p : Ports) (rest : List Presented), s.cfg.Legal → s.pending = .edge p :: rest → p.rst = true →
    ∃ t, step s = .next t ∧
      (∀ lane : Nat, lane < s.cfg.nInputs → t.out.transAt lane = some .unchanged) ∧
      t.out.left = some (mix p.linear p.rot).left ∧ t.out.right = some (mix p.linear p.rot).right ∧
      (FloorInContract p.pwmFloor →
        ∃ dl dr, t.out.dutyL = some dl ∧ t.out.dutyR = some dr ∧
          toDuty (mix p.linear p.rot).left p.brakeL p.pwmFloor = .ok dl ∧
          toDuty (mix p.linear p.rot).right p.brakeR p.pwmFloor = .ok dr) ∧
      (¬ FloorInContract p.pwmFloor → t.out.dutyL = none ∧ t.out.dutyR = none)

/-- R134, as a clocked realization has it: an edge with `rst = 0` and `poll_en = 1` is POLL on the ports; one with
both 0 leaves the counters and reads 00 on every lane, the mixer and the mappers following their inputs. What the
mapper outputs are on an out-of-contract `pwm_floor` there is the model's choice (log 18), and that the model has such
edges is log 17. -/
def Obligations.ClockEdgeStepsOrHolds : Prop :=
  ∀ (s : State) (p : Ports) (rest : List Presented), s.cfg.Legal → s.pending = .edge p :: rest → p.rst = false →
    (p.pollEn = true →
      step s = exec (.poll p.samples p.linear p.rot p.brakeL p.brakeR p.pwmFloor) { s with pending := rest }) ∧
    (p.pollEn = false →
      ∃ t, step s = .next t ∧ t = { s with pending := rest, out := t.out } ∧
        (∀ lane : Nat, lane < s.cfg.nInputs → t.out.transAt lane = some .unchanged) ∧
        t.out.left = some (mix p.linear p.rot).left ∧ t.out.right = some (mix p.linear p.rot).right ∧
        (FloorInContract p.pwmFloor →
          ∃ dl dr, t.out.dutyL = some dl ∧ t.out.dutyR = some dr ∧
            toDuty (mix p.linear p.rot).left p.brakeL p.pwmFloor = .ok dl ∧
            toDuty (mix p.linear p.rot).right p.brakeR p.pwmFloor = .ok dr))

/-- R153: "Between steps the counters hold". When the environment presents nothing the model waits, with nothing
observed (log 5). -/
def Obligations.CountersHoldWhileNothingIsPresented : Prop :=
  ∀ s : State, s.cfg.Legal → s.pending = [] →
    step s = .next { s with out := Outputs.undriven }

/-! ## The debounce lanes -/

/-- R71, DEB.S1: the whole effect of an asserted sample on a lane. What stays of the other lanes is
`DebTouchesItsLaneOnly`. -/
def Obligations.DebS1Effect : Prop :=
  ∀ (s : State) (lane : Nat) (c : Counter), s.cfg.Legal → s.resetDone = true →
    lane < s.cfg.nInputs → s.cnt[lane]? = some c → CounterInRange s.cfg.debounceFloor c →
    encode (.debS1 lane) = (.deb lane, 1) ∧
    ∃ t tr, exec (.debS1 lane) s = .next t ∧
      t = { s with cnt := t.cnt, out := t.out } ∧ t.cnt[lane]? = some 1 ∧
      t.out.transAt lane = some tr ∧
      (c.toInt < 1 → tr = .pressed ∧ tr.code = 0b01#2) ∧
      (c.toInt = 1 → tr = .unchanged ∧ tr.code = 0b00#2)

/-- R72, DEB.S0: the whole effect of an unasserted sample on a lane. What stays of the other lanes is
`DebTouchesItsLaneOnly`. -/
def Obligations.DebS0Effect : Prop :=
  ∀ (s : State) (lane : Nat) (c : Counter), s.cfg.Legal → s.resetDone = true →
    lane < s.cfg.nInputs → s.cnt[lane]? = some c → CounterInRange s.cfg.debounceFloor c →
    encode (.debS0 lane) = (.deb lane, 0) ∧
    ∃ t tr d, exec (.debS0 lane) s = .next t ∧
      t = { s with cnt := t.cnt, out := t.out } ∧ t.cnt[lane]? = some d ∧
      t.out.transAt lane = some tr ∧
      (s.cfg.debounceFloor < c.toInt → d.toInt = c.toInt - 1) ∧
      (s.cfg.debounceFloor < c.toInt → c.toInt - 1 = s.cfg.debounceFloor →
        tr = .released ∧ tr.code = 0b10#2) ∧
      (s.cfg.debounceFloor < c.toInt → c.toInt - 1 ≠ s.cfg.debounceFloor →
        tr = .unchanged ∧ tr.code = 0b00#2) ∧
      (c.toInt = s.cfg.debounceFloor → tr = .unchanged ∧ tr.code = 0b00#2 ∧ d.toInt = s.cfg.debounceFloor)

/-- R73: a debounce step reads only its own lane's sample and counter and writes only its own lane's counter and
Transition: what it answers is the same in any two states that agree on the configuration, on `reset_done` and on
that counter, and every other lane is left alone. That a standalone DEB leaves the other lanes' counters is log 9, that
it drives no Transition of theirs is log 10. -/
def Obligations.DebTouchesItsLaneOnly : Prop :=
  ∀ (lane : Nat) (b : Bool) (s t : State), exec (laneOp lane b) s = .next t →
    t = { s with cnt := t.cnt, out := t.out } ∧ t.cnt.length = s.cnt.length ∧
    (∀ j : Nat, j ≠ lane → t.cnt[j]? = s.cnt[j]? ∧ t.out.transAt j = none) ∧
    (∀ s' : State, s'.cfg = s.cfg → s'.resetDone = s.resetDone → s'.cnt[lane]? = s.cnt[lane]? →
      ∃ t', exec (laneOp lane b) s' = .next t' ∧ t'.cnt[lane]? = t.cnt[lane]? ∧ t'.out = t.out)

/-- R74: a debounce step that finds a counter outside [F, 1] is refused, alone or as part of POLL; and no such
counter is reachable after a reset. -/
def Obligations.CounterOutOfRangeRefused : Prop :=
  (∀ (s : State) (lane : Nat) (c : Counter), s.cfg.Legal → s.resetDone = true →
    lane < s.cfg.nInputs → s.cnt[lane]? = some c → ¬ CounterInRange s.cfg.debounceFloor c →
    exec (.debS1 lane) s = .refused .counterOutOfRange ∧ exec (.debS0 lane) s = .refused .counterOutOfRange ∧
    ∀ samples linear rot bl br f, s.cnt.length = s.cfg.nInputs → samples.length = s.cfg.nInputs → FloorInContract f →
      exec (.poll samples linear rot bl br f) s = .refused .counterOutOfRange) ∧
  (∀ (c : Config) (s : State), c.Legal → Reachable c s → s.resetDone = true →
    ∀ v ∈ s.cnt, CounterInRange s.cfg.debounceFloor v)

/-- The complete table of one lane, which 40_debounce.md derives from its rules, for every floor from -127 to -1,
odd or even (the file's last rule says parity does not matter). -/
def Obligations.LaneTable : Prop :=
  ∀ (F : Int) (c : Counter), -127 ≤ F → F ≤ -1 → CounterInRange F c →
    (c.toInt ≤ 0 → laneStep F c true = some (.pressed, 1)) ∧
    (c.toInt = 1 → laneStep F c true = some (.unchanged, 1)) ∧
    (c.toInt = F → laneStep F c false = some (.unchanged, c)) ∧
    (c.toInt = F + 1 → ∃ d, laneStep F c false = some (.released, d) ∧ d.toInt = F) ∧
    (F + 2 ≤ c.toInt → ∃ d, laneStep F c false = some (.unchanged, d) ∧ d.toInt = c.toInt - 1)

/-- A lane's run from a counter in range never stops, and leaves one transition for each sample and a counter in
range (R21's invariant: the counter "is clamped"). -/
def Obligations.LaneRunStaysInRange : Prop :=
  ∀ (F : Int) (c : Counter) (samples : List Bool), -127 ≤ F → F ≤ -1 → CounterInRange F c →
    ∃ ts d, laneRun F c samples = some (ts, d) ∧ ts.length = samples.length ∧ CounterInRange F d

/-- "Exactly one Pressed is emitted per maximal run of asserted samples, at the run's first sample", from reset
(40_debounce.md's derived properties, item 1). -/
def Obligations.PressedOncePerAssertedRun : Prop :=
  ∀ (F : Int) (samples : List Bool) (ts : List Transition) (d : Counter), -127 ≤ F → F ≤ -1 →
    laneRun F 0 samples = some (ts, d) →
    ∀ j : Nat, ts[j]? = some .pressed ↔
      samples[j]? = some true ∧ (j = 0 ∨ samples[j - 1]? = some false)

/-- When Released is emitted, from reset: at the |F|-th sample of an unasserted run that begins at reset, at the
(1 + |F|)-th of one that follows an asserted sample, and at no other (item 2 of the same list). -/
def Obligations.ReleasedExactlyAtTheFloor : Prop :=
  ∀ (F : Int) (samples : List Bool) (ts : List Transition) (d : Counter), -127 ≤ F → F ≤ -1 →
    laneRun F 0 samples = some (ts, d) →
    ∀ j : Nat, ts[j]? = some .released ↔
      ∃ start : Nat, start ≤ j ∧ (∀ m : Nat, start ≤ m → m ≤ j → samples[m]? = some false) ∧
        ((start = 0 ∧ ((j + 1 - start : Nat) : Int) = -F) ∨
          (0 < start ∧ samples[start - 1]? = some true ∧ ((j + 1 - start : Nat) : Int) = 1 - F))

/-- "A Released is never emitted twice without an asserted sample between" (item 3 of the same list), from any
counter in range. -/
def Obligations.NoReleasedTwiceWithoutAssertion : Prop :=
  ∀ (F : Int) (c : Counter) (samples : List Bool) (ts : List Transition) (d : Counter), -127 ≤ F → F ≤ -1 →
    CounterInRange F c → laneRun F c samples = some (ts, d) →
    ∀ i j : Nat, i < j → ts[i]? = some Transition.released → ts[j]? = some Transition.released →
      ∃ m : Nat, i < m ∧ m < j ∧ samples[m]? = some true

/-- A gap of fewer than 1 + |F| unasserted samples between two asserted ones emits no Released, and the second still
emits Pressed (item 5 of the same list; the hazard "Short gaps re-fire Pressed"). -/
def Obligations.ShortGapPressesAgain : Prop :=
  ∀ (F : Int) (c : Counter) (k : Nat), -127 ≤ F → F ≤ -1 → CounterInRange F c → 1 ≤ k → (k : Int) < 1 - F →
    ∃ t, laneRun F c (true :: List.replicate k false ++ [true]) =
      some (t :: List.replicate k .unchanged ++ [.pressed], 1)

/-- A lane that is never asserted emits one Released, at the |F|-th step after reset, and nothing afterwards (item 6
of the same list; the hazard "Start-up Released"). -/
def Obligations.StartUpReleasedOnce : Prop :=
  ∀ (F : Int) (m k : Nat), -127 ≤ F → F ≤ -1 → (m : Int) + 1 = -F →
    ∃ d, laneRun F 0 (List.replicate (m + 1 + k) false) =
      some (List.replicate m .unchanged ++ Transition.released :: List.replicate k .unchanged, d) ∧ d.toInt = F

/-- What a sample history says of a counter (10_state.md, the paragraph on what Transitions reveal): after an
asserted sample 1; k unasserted samples later `max(1 - k, F)`; after k unasserted samples from reset `max(-k, F)`. -/
def Obligations.CounterAfterUnassertedRun : Prop :=
  ∀ (F : Int) (c : Counter) (k : Nat), -127 ≤ F → F ≤ -1 → CounterInRange F c →
    (∃ ts d, laneRun F c (true :: List.replicate k false) = some (ts, d) ∧ d.toInt = max (1 - (k : Int)) F) ∧
    (∃ ts d, laneRun F 0 (List.replicate k false) = some (ts, d) ∧ d.toInt = max (-(k : Int)) F)

/-- The order in which a model evaluates the lanes makes no difference, because they share nothing
(40_debounce.md): two debounce steps on different lanes leave the same counters either way round. The spec speaks of the
order within one step; that two standalone DEBs show it rests on a standalone DEB leaving the other lane's counter
(log 9). -/
def Obligations.LaneOrderIsImmaterial : Prop :=
  ∀ (i j : Nat) (a b : Bool) (s t : State), i ≠ j →
    execAll [laneOp i a, laneOp j b] s = .next t →
    ∃ u, execAll [laneOp j b, laneOp i a] s = .next u ∧ u.cnt = t.cnt

/-! ## The mixer -/

/-- R90, MIX: the whole operation, written out. It completes in every state of a legal block, reset or not. -/
def Obligations.MixEffect : Prop :=
  ∀ (s : State) (linear rot : Axis), s.cfg.Legal →
    encode (.mix linear rot) = (.mix, linear.toNat + rot.toNat * 2 ^ 16) ∧
    ∃ t left right, exec (.mix linear rot) s = .next t ∧
      t = { s with out := t.out } ∧ t.out.left = some left ∧ t.out.right = some right ∧
      ∀ lin ro l r adj : Int,
        lin = min (max linear.toInt (-127)) 127 → ro = min (max rot.toInt (-127)) 127 →
        l = lin - ro → r = lin + ro →
        adj = (if l > 127 then l - 127 else if l < -127 then l + 127
          else if r > 127 then r - 127 else if r < -127 then r + 127 else 0) →
        left.toInt = l - adj ∧ right.toInt = -(r - adj) ∧ left ≠ 0x80#8 ∧ right ≠ 0x80#8

/-- The mixer's outputs are in [-127, 127] for every input pair, "so the pattern 0x80 is never driven" (41_mixer.md,
derived properties). -/
def Obligations.MixOutputsInRange : Prop :=
  ∀ linear rot : Axis,
    CommandInRange (mix linear rot).left.toInt ∧ CommandInRange (mix linear rot).right.toInt ∧
    (mix linear rot).left ≠ 0x80#8 ∧ (mix linear rot).right ≠ 0x80#8

/-- At most one of the four saturation conditions holds after the clamp, and the shift brings the violating value to
127 or -127 exactly (41_mixer.md, derived properties and step 4). -/
def Obligations.OneSaturationConditionAtMost : Prop :=
  ∀ (linear rot : Axis) (l r : Int), l = clampAxis linear - clampAxis rot → r = clampAxis linear + clampAxis rot →
    (l > 127 → ¬ r > 127 ∧ ¬ r < -127 ∧ l - saturationShift l r = 127) ∧
    (l < -127 → ¬ r > 127 ∧ ¬ r < -127 ∧ l - saturationShift l r = -127) ∧
    (r > 127 → r - saturationShift l r = 127) ∧
    (r < -127 → r - saturationShift l r = -127)

/-- `left + right = -2 * ro` for every input pair, and `left - right = 2 * lin` when nothing saturates (41_mixer.md,
derived properties). -/
def Obligations.MixKeepsTheDifferential : Prop :=
  ∀ linear rot : Axis,
    (mix linear rot).left.toInt + (mix linear rot).right.toInt = -2 * clampAxis rot ∧
    (CommandInRange (clampAxis linear - clampAxis rot) → CommandInRange (clampAxis linear + clampAxis rot) →
      (mix linear rot).left.toInt - (mix linear rot).right.toInt = 2 * clampAxis linear)

/-- The mixer's closed form by case (41_mixer.md, derived properties). -/
def Obligations.MixClosedForm : Prop :=
  ∀ (linear rot : Axis) (lin ro : Int), lin = clampAxis linear → ro = clampAxis rot →
    (lin - ro > 127 → (mix linear rot).left.toInt = 127 ∧ (mix linear rot).right.toInt = -2 * ro - 127) ∧
    (lin - ro < -127 → (mix linear rot).left.toInt = -127 ∧ (mix linear rot).right.toInt = 127 - 2 * ro) ∧
    (lin + ro > 127 → (mix linear rot).left.toInt = 127 - 2 * ro ∧ (mix linear rot).right.toInt = -127) ∧
    (lin + ro < -127 → (mix linear rot).left.toInt = -2 * ro - 127 ∧ (mix linear rot).right.toInt = 127) ∧
    (CommandInRange (lin - ro) → CommandInRange (lin + ro) →
      (mix linear rot).left.toInt = lin - ro ∧ (mix linear rot).right.toInt = -(lin + ro))

/-- R101: MIX reads only `linear` and `rot` and writes no state. -/
def Obligations.MixIsPure : Prop :=
  ∀ (linear rot : Axis) (s s' : State), s.cfg.Legal → s'.cfg.Legal →
    ∃ t t', exec (.mix linear rot) s = .next t ∧ exec (.mix linear rot) s' = .next t' ∧ t.out = t'.out ∧
      t = { s with out := t.out } ∧ t' = { s' with out := t'.out }

/-! ## The output mapper -/

/-- R110 to R117, DUTY: the two contract checks, the command first, and otherwise the four cases. It completes in
every state of a legal block, reset or not. -/
def Obligations.DutyEffect : Prop :=
  ∀ (s : State) (cmd : MotorCommand) (brake : Bool) (f : Level), s.cfg.Legal →
    (cmd.toInt = -128 → exec (.duty cmd brake f) s = .refused .cmdOutOfRange) ∧
    (cmd.toInt ≠ -128 → f.toNat > 0xFFFFFF80 → exec (.duty cmd brake f) s = .refused .pwmFloorOutOfRange) ∧
    (cmd.toInt ≠ -128 → f.toNat ≤ 0xFFFFFF80 →
      encode (.duty cmd brake f) = (.duty, cmd.toNat + brake.toNat * 2 ^ 8 + f.toNat * 2 ^ 9) ∧
      ∃ t d, exec (.duty cmd brake f) s = .next t ∧
        t = { s with out := t.out } ∧ t.out.chan = some d ∧
        (cmd.toInt = 0 → brake = false → d.chanA.toNat = 0 ∧ d.chanB.toNat = 0) ∧
        (cmd.toInt = 0 → brake = true → d.chanA.toNat = f.toNat + 127 ∧ d.chanB.toNat = f.toNat + 127) ∧
        (cmd.toInt < 0 → (d.chanA.toNat : Int) = f.toNat + -cmd.toInt ∧ d.chanB.toNat = 0) ∧
        (cmd.toInt > 0 → d.chanA.toNat = 0 ∧ (d.chanB.toNat : Int) = f.toNat + cmd.toInt))

/-- R111: `cmd = -128` and a `pwm_floor` above 0xFFFFFF80 are refused, and the mappers inside the block never see the
command -128. -/
def Obligations.MapperContract : Prop :=
  (∀ (brake : Bool) (f : Level), toDuty 0x80#8 brake f = .error .cmdOutOfRange) ∧
  (∀ (cmd : MotorCommand) (brake : Bool) (f : Level), cmd ≠ 0x80#8 → f.toNat > 0xFFFFFF80 →
    toDuty cmd brake f = .error .pwmFloorOutOfRange) ∧
  (∀ (cmd : MotorCommand) (brake : Bool) (f : Level), cmd ≠ 0x80#8 → f.toNat ≤ 0xFFFFFF80 →
    ∃ d, toDuty cmd brake f = .ok d) ∧
  (∀ (samples : List Bool) (linear rot : Axis) (bl br : Bool) (f : Level) (s : State),
    exec (.poll samples linear rot bl br f) s ≠ .refused .cmdOutOfRange)

/-- The five boundary properties 42_output_mapper.md derives for every in-contract input. -/
def Obligations.DutyChannelBounds : Prop :=
  ∀ (cmd : MotorCommand) (brake : Bool) (f : Level) (d : DutyPair), toDuty cmd brake f = .ok d →
    (cmd ≠ 0 → (d.chanA = 0 ∧ d.chanB.toNat = f.toNat + cmd.toInt.natAbs ∧ 1 ≤ d.chanB.toNat) ∨
      (d.chanB = 0 ∧ d.chanA.toNat = f.toNat + cmd.toInt.natAbs ∧ 1 ≤ d.chanA.toNat)) ∧
    (cmd = 0 → brake = false → d.chanA = 0 ∧ d.chanB = 0) ∧
    (cmd = 0 → brake = true → d.chanA.toNat = f.toNat + 127 ∧ d.chanB.toNat = f.toNat + 127) ∧
    d.chanA.toNat ≤ f.toNat + 127 ∧ d.chanB.toNat ≤ f.toNat + 127 ∧
    (d.chanA ≠ 0 → f.toNat + 1 ≤ d.chanA.toNat) ∧ (d.chanB ≠ 0 → f.toNat + 1 ≤ d.chanB.toNat)

/-- R121: DUTY reads only `cmd`, `brake` and `pwm_floor`, and writes no state. -/
def Obligations.DutyIsPure : Prop :=
  ∀ (cmd : MotorCommand) (brake : Bool) (f : Level) (s s' t : State), s'.cfg.Legal →
    exec (.duty cmd brake f) s = .next t →
    t = { s with out := t.out } ∧
    ∃ t', exec (.duty cmd brake f) s' = .next t' ∧ t'.out = t.out ∧ t' = { s' with out := t'.out }

/-! ## The whole block -/

/-- R130, POLL: before the first reset it faults; an out-of-contract `pwm_floor` refuses the whole step; otherwise
it completes, with every lane stepped on its own sample, the mixer on the axes and a mapper on each command. -/
def Obligations.PollEffect : Prop :=
  ∀ (s : State) (samples : List Bool) (linear rot : Axis) (bl br : Bool) (f : Level), s.Inv →
    samples.length = s.cfg.nInputs →
    (s.resetDone = false → exec (.poll samples linear rot bl br f) s = .fault .notReset) ∧
    (s.resetDone = true → f.toNat > 0xFFFFFF80 →
      exec (.poll samples linear rot bl br f) s = .refused .pwmFloorOutOfRange) ∧
    (s.resetDone = true → f.toNat ≤ 0xFFFFFF80 →
      decode s.cfg.nInputs (encode (.poll samples linear rot bl br f)).1 (encode (.poll samples linear rot bl br f)).2 =
        .ok (.poll samples linear rot bl br f) ∧
      ∃ t dl dr, exec (.poll samples linear rot bl br f) s = .next t ∧
        t = { s with cnt := t.cnt, out := t.out } ∧ t.cnt.length = s.cfg.nInputs ∧
        (∀ (lane : Nat) (c : Counter) (b : Bool), s.cnt[lane]? = some c → samples[lane]? = some b →
          ∃ tr c', laneStep s.cfg.debounceFloor c b = some (tr, c') ∧
            t.cnt[lane]? = some c' ∧ t.out.transAt lane = some tr) ∧
        t.out.left = some (mix linear rot).left ∧ t.out.right = some (mix linear rot).right ∧
        toDuty (mix linear rot).left bl f = .ok dl ∧ t.out.dutyL = some dl ∧
        toDuty (mix linear rot).right br f = .ok dr ∧ t.out.dutyR = some dr)

/-- A part used alone drives its own outputs and no other port: DEB its lane's Transition, MIX the two commands, DUTY
the two channels. The spec says only that one lane is observed in a standalone DEB; the rest is the model's (log
10). -/
def Obligations.PartsAloneDriveTheirOwnPorts : Prop :=
  (∀ (lane : Nat) (b : Bool) (s t : State), exec (laneOp lane b) s = .next t →
    ∃ tr, t.out.transAt lane = some tr ∧ (∀ j : Nat, j ≠ lane → t.out.transAt j = none) ∧
      t.out = { Outputs.undriven with trans := t.out.trans }) ∧
  (∀ (linear rot : Axis) (s t : State), exec (.mix linear rot) s = .next t →
    t.out = { Outputs.undriven with left := some (mix linear rot).left, right := some (mix linear rot).right }) ∧
  (∀ (cmd : MotorCommand) (brake : Bool) (f : Level) (s t : State), exec (.duty cmd brake f) s = .next t →
    ∃ d, toDuty cmd brake f = .ok d ∧ t.out = { Outputs.undriven with chan := some d })

/-- A POLL equals doing DEB on every lane, then MIX, then DUTY on each output, on the same step's inputs
(43_core_step.md's last rule, derived there). The first clause does the lanes as standalone DEBs one after the other, so
it rests on log 9; that DUTY alone shows its pair on `chan` is R50. -/
def Obligations.PollEqualsItsParts : Prop :=
  ∀ (s t : State) (samples : List Bool) (linear rot : Axis) (bl br : Bool) (f : Level), s.Inv →
    exec (.poll samples linear rot bl br f) s = .next t →
    (∃ u, execAll (laneOps 0 samples) s = .next u ∧ u.cnt = t.cnt) ∧
    (∀ (lane : Nat) (b : Bool), samples[lane]? = some b →
      ∃ u, exec (laneOp lane b) s = .next u ∧ u.out.transAt lane = t.out.transAt lane) ∧
    (∃ u, exec (.mix linear rot) s = .next u ∧ u.out.left = t.out.left ∧ u.out.right = t.out.right) ∧
    (∀ c, t.out.left = some c → ∃ u, exec (.duty c bl f) s = .next u ∧ u.out.chan = t.out.dutyL) ∧
    (∀ c, t.out.right = some c → ∃ u, exec (.duty c br f) s = .next u ∧ u.out.chan = t.out.dutyR)

/-- R132: the lanes and the motion path share no signal. -/
def Obligations.LanesAndMotionAreIndependent : Prop :=
  (∀ (s t t' : State) (samples : List Bool) (linear rot linear' rot' : Axis) (bl br bl' br' : Bool) (f f' : Level),
    exec (.poll samples linear rot bl br f) s = .next t → exec (.poll samples linear' rot' bl' br' f') s = .next t' →
    t.cnt = t'.cnt ∧ t.out.trans = t'.out.trans) ∧
  (∀ (s s' t t' : State) (samples samples' : List Bool) (linear rot : Axis) (bl br : Bool) (f : Level),
    exec (.poll samples linear rot bl br f) s = .next t → exec (.poll samples' linear rot bl br f) s' = .next t' →
    t.out.left = t'.out.left ∧ t.out.right = t'.out.right ∧ t.out.dutyL = t'.out.dutyL ∧ t.out.dutyR = t'.out.dutyR)

/-- The all-zero initial snapshot, decoded to `linear = 128` and `rot = -128`, drives both motors forward at the
largest duty (70_reset_and_hazards.md, derived there). -/
def Obligations.AllZeroSnapshotDrivesFullForward : Prop :=
  ∀ (s t : State) (samples : List Bool) (f : Level),
    exec (.poll samples 128 (-128) false false f) s = .next t →
    t.out.left = some 127 ∧ t.out.right = some 127 ∧
    ∃ d, t.out.dutyL = some d ∧ t.out.dutyR = some d ∧ d.chanA.toNat = 0 ∧ d.chanB.toNat = f.toNat + 127

/-- Polls presented one after the other run every lane on its own samples: what lane i shows step by step is what the
lane machine shows alone (R76: "independent copies of the lane machine"; R22, R136). That the polls are presented as a
list in State is log 4. -/
def Obligations.PanelRunsItsLanes : Prop :=
  ∀ (s : State) (polls : List Instr) (rest : List Presented) (lane : Nat) (c : Counter), s.Inv → s.resetDone = true →
    s.pending = polls.map presentInstr ++ rest → s.cnt[lane]? = some c →
    (∀ i ∈ polls, ∃ samples linear rot bl br f,
      i = .poll samples linear rot bl br f ∧ samples.length = s.cfg.nInputs ∧ FloorInContract f) →
    ∀ column : List Bool,
      polls.map (fun i => match i with | .poll samples _ _ _ _ _ => samples[lane]? | _ => none) = column.map some →
      ∃ ts d, laneRun s.cfg.debounceFloor c column = some (ts, d) ∧
        (advanceN polls.length s).cnt[lane]? = some d ∧
        (observe polls.length s).map (fun o => o.transAt lane) = ts.map some

/-! ## Reset -/

/-- R133: RESET completes from any state of a legal block; every counter is 0 after it, `reset_done` is set, a
recorded fault stays recorded; no other operation leaves the not-yet-reset state; and whatever a lane held before, its
next asserted sample reports Pressed. -/
def Obligations.ResetEffect : Prop :=
  (∀ s : State, s.cfg.Legal →
    exec .reset s = .next { s with
      cnt := List.replicate s.cfg.nInputs 0, resetDone := true, out := Outputs.undriven } ∧
    encode .reset = (.rst, 1)) ∧
  (∀ (i : Instr) (s t : State), exec i s = .next t → s.resetDone = false → t.resetDone = true → i = .reset) ∧
  (∀ (s : State) (lane : Nat), s.cfg.Legal → lane < s.cfg.nInputs →
    ∃ t, execAll [.reset, .debS1 lane] s = .next t ∧ t.out.transAt lane = some .pressed ∧ t.cnt[lane]? = some 1)

/-- R31: "At reset every counter becomes 0", which lies in [F, 1] for every legal floor; and so it is in the model's
state after reset. -/
def Obligations.ResetValues : Prop :=
  (∀ s : State, s.cfg.Legal → ∃ t, exec .reset s = .next t ∧
    (∀ lane : Nat, lane < s.cfg.nInputs → t.cnt[lane]? = some 0) ∧ t.cnt.length = s.cfg.nInputs ∧
    CounterInRange s.cfg.debounceFloor 0) ∧
  (∀ lane : Nat, lane < State.reset.cfg.nInputs → State.reset.cnt[lane]? = some 0) ∧
  State.reset.cnt.length = State.reset.cfg.nInputs

/-! ## Faults, refusals and their order -/

/-- R142: a DEB or POLL before the first reset is the one fault; it is recorded and never cleared, and RESET does not
erase it. That a faulting step, as `advance` records it, changes neither the counters nor `reset_done` is log 7. -/
def Obligations.NotResetIsTheOneFault : Prop :=
  (∀ (s : State) (i : Instr), s.cfg.Legal → s.resetDone = false → i.stepsLanes = true →
    exec i s = .fault .notReset) ∧
  (∀ (s : State) (i : Instr) (f : Fault), exec i s = .fault f →
    f = .notReset ∧ s.resetDone = false ∧ i.stepsLanes = true) ∧
  (∀ (s : State) (f : Fault), step s = .fault f → (advance s).faultRecord ≠ none ∧
    (advance s).cnt = s.cnt ∧ (advance s).resetDone = s.resetDone) ∧
  (∀ (s : State) (f : Fault) (k : Nat), s.faultRecord = some f → (advanceN k s).faultRecord = some f) ∧
  (∀ (s t : State), exec .reset s = .next t → t.faultRecord = s.faultRecord)

/-- R141: the closed list of refusal reasons and when each is raised, for the operations of the block; a refused
step does not take place, and the mark is kept by every later state. Which reason a mark keeps is
`FirstRefusalReasonStays`. -/
def Obligations.RefusalsAreTheListed : Prop :=
  (∀ (s : State) (i : Instr) (r : Refusal), s.cnt.length = s.cfg.nInputs → i.wellFormed s.cfg.nInputs = true →
    exec i s = .refused r →
    (r = .badFloor ∧ ¬ s.cfg.FloorLegal) ∨ (r = .badInputCount ∧ s.cfg.nInputs = 0) ∨
    (r = .counterOutOfRange ∧ i.stepsLanes = true ∧ ∃ c ∈ s.cnt, ¬ CounterInRange s.cfg.debounceFloor c) ∨
    (r = .cmdOutOfRange ∧ ∃ b f, i = .duty (-128) b f) ∨
    (r = .pwmFloorOutOfRange ∧ i.inContract = false)) ∧
  (∀ (s : State) (r : Refusal), step s = .refused r → (advance s).refusalMark ≠ none ∧
    (advance s).cnt = s.cnt ∧ (advance s).resetDone = s.resetDone) ∧
  (∀ (s : State) (k : Nat), s.refusalMark ≠ none → (advanceN k s).refusalMark ≠ none) ∧
  (∀ (s t : State), ¬ s.cfg.Legal → step s ≠ .next t) ∧
  (∀ (s : State) (i : Instr), ¬ s.cfg.FloorLegal → 1 ≤ s.cfg.nInputs → exec i s = .refused .badFloor) ∧
  (∀ (s : State) (i : Instr), s.cfg.FloorLegal → s.cfg.nInputs = 0 → exec i s = .refused .badInputCount) ∧
  (∀ (s : State) (lane : Nat) (b : Bool) (c : Counter), s.cfg.Legal → s.resetDone = true → lane < s.cfg.nInputs →
    s.cnt[lane]? = some c → ¬ CounterInRange s.cfg.debounceFloor c →
    exec (laneOp lane b) s = .refused .counterOutOfRange) ∧
  (∀ (s : State) (lane : Nat) (c : Counter) (samples : List Bool) (linear rot : Axis) (bl br : Bool) (f : Level),
    s.cfg.Legal → s.resetDone = true → s.cnt.length = s.cfg.nInputs → samples.length = s.cfg.nInputs →
    FloorInContract f → s.cnt[lane]? = some c → ¬ CounterInRange s.cfg.debounceFloor c →
    exec (.poll samples linear rot bl br f) s = .refused .counterOutOfRange) ∧
  (∀ (s : State) (b : Bool) (f : Level), s.cfg.Legal → exec (.duty (-128) b f) s = .refused .cmdOutOfRange) ∧
  (∀ (s : State) (c : MotorCommand) (b : Bool) (f : Level), s.cfg.Legal → c ≠ -128 → f.toNat > 0xFFFFFF80 →
    exec (.duty c b f) s = .refused .pwmFloorOutOfRange) ∧
  (∀ (s : State) (samples : List Bool) (linear rot : Axis) (bl br : Bool) (f : Level), s.cfg.Legal →
    s.resetDone = true → f.toNat > 0xFFFFFF80 →
    exec (.poll samples linear rot bl br f) s = .refused .pwmFloorOutOfRange)

/-- A refusal mark keeps its reason through any number of steps, whatever they are refused for: the first reason stays.
That is the model's choice (log 8); that steps go on after a refusal is log 7. -/
def Obligations.FirstRefusalReasonStays : Prop :=
  ∀ (s : State) (r : Refusal) (k : Nat), s.refusalMark = some r → (advanceN k s).refusalMark = some r

/-- R5 and R6: which configurations are refused, by which name, and that a configuration never changes. -/
def Obligations.ConfigurationContract : Prop :=
  (∀ c : Config, (c.debounceFloor % 2 = 0 ∨ 0 ≤ c.debounceFloor ∨ c.debounceFloor < -127) → 1 ≤ c.nInputs →
    build c = .refused .badFloor) ∧
  (∀ c : Config, (c.debounceFloor % 2 = 0 ∨ 0 ≤ c.debounceFloor ∨ c.debounceFloor < -127) → c.nInputs = 0 →
    build c = .refused .badFloor ∨ build c = .refused .badInputCount) ∧
  (∀ c : Config, c.debounceFloor % 2 = 1 → -127 ≤ c.debounceFloor → c.debounceFloor ≤ -1 → c.nInputs = 0 →
    build c = .refused .badInputCount) ∧
  (∀ c : Config, c.debounceFloor % 2 = 1 → -127 ≤ c.debounceFloor → c.debounceFloor ≤ -1 → 1 ≤ c.nInputs →
    build c = .next (State.powerUp c)) ∧
  (∀ (s : State) (k : Nat), (advanceN k s).cfg = s.cfg)

/-- The order of the outcomes that R143 fixes, with the order of the saturation conditions. -/
def Obligations.OutcomePriority : Prop :=
  (∀ (s : State) (i : Instr), ¬ s.cfg.Legal →
    exec i s = .refused .badFloor ∨ exec i s = .refused .badInputCount) ∧
  (∀ (s : State) (i : Instr), s.cfg.Legal → s.resetDone = false → i.stepsLanes = true → exec i s = .fault .notReset) ∧
  (∀ (s : State) (samples : List Bool) (linear rot : Axis) (bl br : Bool) (f : Level), s.cfg.Legal →
    s.resetDone = true → ¬ FloorInContract f →
    exec (.poll samples linear rot bl br f) s = .refused .pwmFloorOutOfRange) ∧
  (∀ (s : State) (b : Bool) (f : Level), s.cfg.Legal → exec (.duty (-128) b f) s = .refused .cmdOutOfRange) ∧
  (∀ l r : Int,
    (l > 127 → saturationShift l r = l - 127) ∧
    (l < -127 → saturationShift l r = l + 127) ∧
    (CommandInRange l → r > 127 → saturationShift l r = r - 127) ∧
    (CommandInRange l → r < -127 → saturationShift l r = r + 127))

/-! ## Invariants and whole-machine rules -/

/-- A step keeps the invariant of R20 and R21: the configuration legal, one counter a lane, every counter in [F, 1]
once a reset has happened. -/
def Obligations.StepKeepsCountersInRange : Prop :=
  ∀ s t : State, s.Inv → step s = .next t → t.Inv

/-- `advance` keeps the invariant and the configuration, through faults and refusals too (how it records them is
log 7). -/
def Obligations.AdvanceKeepsCountersInRange : Prop :=
  ∀ s : State, s.Inv → (advance s).Inv ∧ (advance s).cfg = s.cfg

/-- The state after reset meets the invariant, for the model's configuration (log 1) and for every legal one, and a
RESET takes a newly built block there (logs 2 and 3 for what else that state holds). -/
def Obligations.ResetMeetsTheCounterBounds : Prop :=
  State.reset.Inv ∧
  ∀ c : Config, c.Legal → (State.afterReset c).Inv ∧ exec .reset (State.powerUp c) = .next (State.afterReset c)

/-- Every reachable state meets the invariant: whatever the environment presents, and through faults and refusals,
a counter outside [F, 1] "is unreachable from reset" (R21). What the environment presents is a list it may replace at any
time (log 4); how faults and refusals are recorded is log 7. -/
def Obligations.ReachableStatesMeetTheBounds : Prop :=
  ∀ (c : Config) (s : State), c.Legal → Reachable c s → s.Inv ∧ s.cfg = c

/-- R54: no step drives a MotorCommand outside [-127, 127], from any state at all. -/
def Obligations.NoStepDrivesCommandOutOfRange : Prop :=
  ∀ s t : State, step s = .next t → t.out.CommandsInRange

/-- R155: every in-contract step completes; before the first reset, everything in contract that steps no lane. The
model's own: that what is presented stands in a list, whose first entry a step takes off (log 4), and that clock edges at
which the spec has no step, `rst = 1` or `poll_en = 0`, are steps of the model that complete too (log 17). -/
def Obligations.InContractStepCompletes : Prop :=
  ∀ (s : State) (p : Presented) (rest : List Presented), s.Inv → s.pending = p :: rest →
    p.InContract s.cfg.nInputs → (s.resetDone = true ∨ ¬ p.StepsLanes s.cfg.nInputs) →
    ∃ t, step s = .next t ∧ t.pending = rest

/-- R30: output ports are not state: what a step answers does not depend on the outputs of the step before. -/
def Obligations.OutputsAreNotState : Prop :=
  ∀ (s : State) (o : Outputs), step { s with out := o } = step s

/-- R9: no step depends on RESET_STYLE. -/
def Obligations.ResetStyleChangesNothing : Prop :=
  ∀ (s : State) (style : ResetStyle),
    step { s with cfg := { s.cfg with resetStyle := style } } =
      match step s with
      | .next t => .next { t with cfg := { t.cfg with resetStyle := style } }
      | .fault f => .fault f
      | .refused r => .refused r

/-- The frame of every operation: the configuration, the records and what is still to be presented are never written,
`reset_done` only by RESET, a counter by none of MIX and DUTY, and POLL and DEB keep the number of lanes
(10_state.md, 43_core_step.md). -/
def Obligations.OperationFrame : Prop :=
  ∀ (i : Instr) (s t : State), exec i s = .next t →
    t.cfg = s.cfg ∧ t.pending = s.pending ∧ t.faultRecord = s.faultRecord ∧ t.refusalMark = s.refusalMark ∧
    (i ≠ .reset → t.resetDone = s.resetDone) ∧
    (i.stepsLanes = false → i ≠ .reset → t.cnt = s.cnt) ∧
    (s.cnt.length = s.cfg.nInputs → t.cnt.length = t.cfg.nInputs)

/-- An environment that ties every `pwm_floor` to an in-contract PWM_MIN (R8) never meets `PwmFloorOutOfRange`. -/
def Obligations.TiedFloorIsNeverRefused : Prop :=
  ∀ (s : State) (pwmMin : Level), FloorInContract pwmMin → FloorTied pwmMin s →
    step s ≠ .refused .pwmFloorOutOfRange

/-- R52: the three codes, which are distinct; `11` is the code of none. -/
def Obligations.TransitionCodes : Prop :=
  Transition.code .unchanged = 0b00#2 ∧ Transition.code .pressed = 0b01#2 ∧ Transition.code .released = 0b10#2 ∧
  ∀ t : Transition, t.code ≠ 0b11#2
end

