-- ==== Sys2Proof/Laws/State.lean ====
section
/-! SUPPORT. What each field of a state is after each update: one lemma per field per update. -/

namespace Sys2Proof.Machine.State

variable (s : State)

@[simp] theorem writeCounter_cfg (lane : Nat) (v : Counter) : (s.writeCounter lane v).cfg = s.cfg := rfl
@[simp] theorem writeCounter_cnt (lane : Nat) (v : Counter) : (s.writeCounter lane v).cnt = s.cnt.set lane v := rfl
@[simp] theorem writeCounter_resetDone (lane : Nat) (v : Counter) : (s.writeCounter lane v).resetDone = s.resetDone := rfl
@[simp] theorem writeCounter_faultRecord (lane : Nat) (v : Counter) : (s.writeCounter lane v).faultRecord = s.faultRecord := rfl
@[simp] theorem writeCounter_refusalMark (lane : Nat) (v : Counter) : (s.writeCounter lane v).refusalMark = s.refusalMark := rfl
@[simp] theorem writeCounter_out (lane : Nat) (v : Counter) : (s.writeCounter lane v).out = s.out := rfl
@[simp] theorem writeCounter_pending (lane : Nat) (v : Counter) : (s.writeCounter lane v).pending = s.pending := rfl

@[simp] theorem writePanel_cfg (cs : List Counter) : (s.writePanel cs).cfg = s.cfg := rfl
@[simp] theorem writePanel_cnt (cs : List Counter) : (s.writePanel cs).cnt = cs := rfl
@[simp] theorem writePanel_resetDone (cs : List Counter) : (s.writePanel cs).resetDone = s.resetDone := rfl
@[simp] theorem writePanel_faultRecord (cs : List Counter) : (s.writePanel cs).faultRecord = s.faultRecord := rfl
@[simp] theorem writePanel_refusalMark (cs : List Counter) : (s.writePanel cs).refusalMark = s.refusalMark := rfl
@[simp] theorem writePanel_out (cs : List Counter) : (s.writePanel cs).out = s.out := rfl
@[simp] theorem writePanel_pending (cs : List Counter) : (s.writePanel cs).pending = s.pending := rfl

@[simp] theorem clearCounters_cfg : s.clearCounters.cfg = s.cfg := rfl
@[simp] theorem clearCounters_cnt : s.clearCounters.cnt = List.replicate s.cfg.nInputs 0 := rfl
@[simp] theorem clearCounters_resetDone : s.clearCounters.resetDone = true := rfl
@[simp] theorem clearCounters_faultRecord : s.clearCounters.faultRecord = s.faultRecord := rfl
@[simp] theorem clearCounters_refusalMark : s.clearCounters.refusalMark = s.refusalMark := rfl
@[simp] theorem clearCounters_out : s.clearCounters.out = s.out := rfl
@[simp] theorem clearCounters_pending : s.clearCounters.pending = s.pending := rfl

@[simp] theorem drive_cfg (o : Outputs) : (s.drive o).cfg = s.cfg := rfl
@[simp] theorem drive_cnt (o : Outputs) : (s.drive o).cnt = s.cnt := rfl
@[simp] theorem drive_resetDone (o : Outputs) : (s.drive o).resetDone = s.resetDone := rfl
@[simp] theorem drive_faultRecord (o : Outputs) : (s.drive o).faultRecord = s.faultRecord := rfl
@[simp] theorem drive_refusalMark (o : Outputs) : (s.drive o).refusalMark = s.refusalMark := rfl
@[simp] theorem drive_out (o : Outputs) : (s.drive o).out = o := rfl
@[simp] theorem drive_pending (o : Outputs) : (s.drive o).pending = s.pending := rfl

@[simp] theorem withPending_cfg (ps : List Presented) : (s.withPending ps).cfg = s.cfg := rfl
@[simp] theorem withPending_cnt (ps : List Presented) : (s.withPending ps).cnt = s.cnt := rfl
@[simp] theorem withPending_resetDone (ps : List Presented) : (s.withPending ps).resetDone = s.resetDone := rfl
@[simp] theorem withPending_faultRecord (ps : List Presented) : (s.withPending ps).faultRecord = s.faultRecord := rfl
@[simp] theorem withPending_refusalMark (ps : List Presented) : (s.withPending ps).refusalMark = s.refusalMark := rfl
@[simp] theorem withPending_out (ps : List Presented) : (s.withPending ps).out = s.out := rfl
@[simp] theorem withPending_pending (ps : List Presented) : (s.withPending ps).pending = ps := rfl

@[simp] theorem recordFault_cfg (f : Fault) : (s.recordFault f).cfg = s.cfg := rfl
@[simp] theorem recordFault_cnt (f : Fault) : (s.recordFault f).cnt = s.cnt := rfl
@[simp] theorem recordFault_resetDone (f : Fault) : (s.recordFault f).resetDone = s.resetDone := rfl
@[simp] theorem recordFault_faultRecord (f : Fault) : (s.recordFault f).faultRecord = s.faultRecord.or (some f) := rfl
@[simp] theorem recordFault_refusalMark (f : Fault) : (s.recordFault f).refusalMark = s.refusalMark := rfl
@[simp] theorem recordFault_out (f : Fault) : (s.recordFault f).out = Outputs.undriven := rfl
@[simp] theorem recordFault_pending (f : Fault) : (s.recordFault f).pending = s.pending.tail := rfl

@[simp] theorem recordRefusal_cfg (r : Refusal) : (s.recordRefusal r).cfg = s.cfg := rfl
@[simp] theorem recordRefusal_cnt (r : Refusal) : (s.recordRefusal r).cnt = s.cnt := rfl
@[simp] theorem recordRefusal_resetDone (r : Refusal) : (s.recordRefusal r).resetDone = s.resetDone := rfl
@[simp] theorem recordRefusal_faultRecord (r : Refusal) : (s.recordRefusal r).faultRecord = s.faultRecord := rfl
@[simp] theorem recordRefusal_refusalMark (r : Refusal) : (s.recordRefusal r).refusalMark = s.refusalMark.or (some r) := rfl
@[simp] theorem recordRefusal_out (r : Refusal) : (s.recordRefusal r).out = Outputs.undriven := rfl
@[simp] theorem recordRefusal_pending (r : Refusal) : (s.recordRefusal r).pending = s.pending.tail := rfl

@[simp] theorem withFetchWord_cfg (nbits w : Nat) : (s.withFetchWord nbits w).cfg = s.cfg := rfl
@[simp] theorem withFetchWord_cnt (nbits w : Nat) : (s.withFetchWord nbits w).cnt = s.cnt := rfl
@[simp] theorem withFetchWord_resetDone (nbits w : Nat) : (s.withFetchWord nbits w).resetDone = s.resetDone := rfl
@[simp] theorem withFetchWord_faultRecord (nbits w : Nat) : (s.withFetchWord nbits w).faultRecord = s.faultRecord := rfl
@[simp] theorem withFetchWord_refusalMark (nbits w : Nat) : (s.withFetchWord nbits w).refusalMark = s.refusalMark := rfl
@[simp] theorem withFetchWord_out (nbits w : Nat) : (s.withFetchWord nbits w).out = s.out := rfl
@[simp] theorem withFetchWord_pending (nbits w : Nat) : (s.withFetchWord nbits w).pending = .word (tableFormat nbits) w :: s.pending := rfl

@[simp] theorem afterReset_cfg (c : Config) : (State.afterReset c).cfg = c := rfl
@[simp] theorem afterReset_cnt (c : Config) : (State.afterReset c).cnt = List.replicate c.nInputs 0 := rfl
@[simp] theorem afterReset_resetDone (c : Config) : (State.afterReset c).resetDone = true := rfl
@[simp] theorem powerUp_cfg (c : Config) : (State.powerUp c).cfg = c := rfl
@[simp] theorem powerUp_resetDone (c : Config) : (State.powerUp c).resetDone = false := rfl
@[simp] theorem powerUp_cnt_length (c : Config) : (State.powerUp c).cnt.length = c.nInputs := by simp [State.powerUp]

end Sys2Proof.Machine.State
end

