-- ==== Sys2Proof/Laws/Ops.lean ====
section
/-! SUPPORT. What the shared operations can do, said once: when a guard lets a result through, and what stands on the
ports after each way of driving them. -/

namespace Sys2Proof.Machine

theorem configRefusal_eq_none_iff (c : Config) : configRefusal c = none ↔ c.Legal := by
  unfold configRefusal
  split
  · exact ⟨nofun, fun h => absurd h.1 (by assumption)⟩
  · split
    · exact ⟨nofun, fun h => absurd h.2 (by assumption)⟩
    · exact ⟨fun _ => ⟨not_not.1 (by assumption), not_not.1 (by assumption)⟩, fun _ => rfl⟩

theorem configRefusal_of_legal {c : Config} (h : c.Legal) : configRefusal c = none :=
  (configRefusal_eq_none_iff c).2 h

/-- The two reasons a configuration is refused for. -/
theorem configRefusal_eq_some {c : Config} {r : Refusal} (h : configRefusal c = some r) :
    (r = .badFloor ∧ ¬ c.FloorLegal) ∨ (r = .badInputCount ∧ c.FloorLegal ∧ ¬ c.CountLegal) := by
  unfold configRefusal at h
  split at h
  · left; exact ⟨(Option.some.inj h).symm, by assumption⟩
  · split at h
    · right; exact ⟨(Option.some.inj h).symm, not_not.1 (by assumption), by assumption⟩
    · cases h

theorem onMachine_of_legal {s : State} (h : s.cfg.Legal) (k : Result) : onMachine s k = k := by
  simp [onMachine, configRefusal_of_legal h]

theorem onMachine_of_not_legal {s : State} (h : ¬ s.cfg.Legal) :
    ∃ r, configRefusal s.cfg = some r ∧ ∀ k, onMachine s k = .refused r := by
  cases hr : configRefusal s.cfg with
  | none => exact absurd ((configRefusal_eq_none_iff _).1 hr) h
  | some r => exact ⟨r, rfl, fun k => by simp [onMachine, hr]⟩

/-- What lies behind the configuration guard when it answers a next state. -/
theorem onMachine_next {s t : State} {k : Result} (h : onMachine s k = .next t) : s.cfg.Legal ∧ k = .next t := by
  by_cases hl : s.cfg.Legal
  · exact ⟨hl, onMachine_of_legal hl k ▸ h⟩
  · obtain ⟨r, -, hk⟩ := onMachine_of_not_legal hl
    rw [hk] at h; cases h

theorem onMachine_fault {s : State} {f : Fault} {k : Result} (h : onMachine s k = .fault f) :
    s.cfg.Legal ∧ k = .fault f := by
  by_cases hl : s.cfg.Legal
  · exact ⟨hl, onMachine_of_legal hl k ▸ h⟩
  · obtain ⟨r, -, hk⟩ := onMachine_of_not_legal hl
    rw [hk] at h; cases h

theorem onMachine_refused {s : State} {r : Refusal} {k : Result} (h : onMachine s k = .refused r) :
    configRefusal s.cfg = some r ∨ (s.cfg.Legal ∧ k = .refused r) := by
  by_cases hl : s.cfg.Legal
  · exact .inr ⟨hl, onMachine_of_legal hl k ▸ h⟩
  · obtain ⟨r', hr, hk⟩ := onMachine_of_not_legal hl
    rw [hk] at h; cases h; exact .inl hr

theorem onceReset_of_done {s : State} (h : s.resetDone = true) (k : Result) : onceReset s k = k := by
  simp [onceReset, h]

theorem onceReset_of_not_done {s : State} (h : s.resetDone = false) (k : Result) :
    onceReset s k = .fault .notReset := by simp [onceReset, h]

theorem onceReset_next {s t : State} {k : Result} (h : onceReset s k = .next t) :
    s.resetDone = true ∧ k = .next t := by
  unfold onceReset at h; split at h
  · exact ⟨by assumption, h⟩
  · cases h

theorem onceReset_refused {s : State} {r : Refusal} {k : Result} (h : onceReset s k = .refused r) :
    s.resetDone = true ∧ k = .refused r := by
  unfold onceReset at h; split at h
  · exact ⟨by assumption, h⟩
  · cases h

theorem onceReset_fault {s : State} {f : Fault} {k : Result} (h : onceReset s k = .fault f) :
    (f = .notReset ∧ s.resetDone = false) ∨ k = .fault f := by
  unfold onceReset at h; split at h
  · exact .inr h
  · cases h; exact .inl ⟨rfl, by simpa using ‹¬ s.resetDone = true›⟩

theorem readCounter_eq_some_iff {s : State} {lane : Nat} {c : Counter} :
    s.readCounter lane = some c ↔ lane < s.cfg.nInputs ∧ s.cnt[lane]? = some c := by
  unfold State.readCounter; split <;> simp_all

/-- The one lane a standalone debounce step shows, and no other. -/
theorem transAt_ofLane_self {n lane : Nat} (h : lane < n) (t : Transition) :
    (Outputs.ofLane n lane t).transAt lane = some t := by
  simp [Outputs.ofLane, Outputs.transAt, h]

theorem transAt_ofLane_ne {n lane j : Nat} (h : j ≠ lane) (t : Transition) :
    (Outputs.ofLane n lane t).transAt j = none := by
  simp only [Outputs.ofLane, Outputs.transAt]
  rw [List.getElem?_set_ne (Ne.symm h)]
  by_cases hj : j < n <;> simp [hj]

theorem transAt_ofPoll (ts : List Transition) (m : MotorPair) (dl dr : DutyPair) (lane : Nat) :
    (Outputs.ofPoll ts m dl dr).transAt lane = ts[lane]? := by
  simp only [Outputs.ofPoll, Outputs.transAt, List.getElem?_map]
  cases ts[lane]? <;> rfl

end Sys2Proof.Machine
end

