-- ==== Sys2Proof/Laws/Debounce.lean ====
section
/-! SUPPORT. What one debounce step, one step of the panel and one DEB can do. -/

namespace Sys2Proof.Machine

/-- Narrowing to the 8-bit counter loses nothing from -127 to 1 (R7, R21). -/
theorem toInt_ofInt_counter {v : Int} (h1 : -127 ≤ v) (h2 : v ≤ 127) : (BitVec.ofInt 8 v).toInt = v := by
  rw [BitVec.toInt_ofInt]; simp [Int.bmod]; omega

theorem assertedStep_snd (c : Counter) : (assertedStep c).2 = 1 := by unfold assertedStep; split <;> rfl

theorem assertedStep_fst (c : Counter) : (assertedStep c).1 = if c.toInt < 1 then .pressed else .unchanged := by
  unfold assertedStep; split <;> rfl

theorem unassertedStep_fst (F : Int) (c : Counter) :
    (unassertedStep F c).1 = if c.toInt = F + 1 then .released else .unchanged := by
  unfold unassertedStep; split
  · simp only [sub_eq_iff_eq_add]
  · rw [if_neg (by omega)]

/-- The counter after an unasserted sample: one lower, but never below the floor (R72). -/
theorem unassertedStep_snd_toInt {F : Int} {c : Counter} (h1 : -127 ≤ F) (h2 : F ≤ -1) (hc : CounterInRange F c) :
    (unassertedStep F c).2.toInt = max (c.toInt - 1) F := by
  obtain ⟨ha, hb⟩ := hc
  unfold unassertedStep; split
  · rw [toInt_ofInt_counter (by omega) (by omega)]; omega
  · rw [toInt_ofInt_counter (by omega) (by omega)]; omega

theorem laneStep_of_inRange {F : Int} {c : Counter} (h : CounterInRange F c) (b : Bool) :
    laneStep F c b = some (if b then assertedStep c else unassertedStep F c) := if_pos h

theorem laneStep_of_not_inRange {F : Int} {c : Counter} (h : ¬ CounterInRange F c) (b : Bool) :
    laneStep F c b = none := if_neg h

/-- A step keeps its counter in [F, 1] (R71, R72, R74). -/
theorem laneStep_inRange {F : Int} {c d : Counter} {b : Bool} {t : Transition} (h1 : -127 ≤ F) (h2 : F ≤ -1)
    (h : laneStep F c b = some (t, d)) : CounterInRange F d := by
  by_cases hc : CounterInRange F c
  · rw [laneStep_of_inRange hc] at h
    cases b with
    | true =>
      have : d = 1 := by rw [← assertedStep_snd c]; simp_all
      subst this; exact ⟨by simp; omega, by simp⟩
    | false =>
      have : d.toInt = max (c.toInt - 1) F := by rw [← unassertedStep_snd_toInt h1 h2 hc]; simp_all
      exact ⟨by omega, by have := hc.2; omega⟩
  · rw [laneStep_of_not_inRange hc] at h; cases h

/-- Everything a step of the panel that goes through says: one result for each lane, the lane's own. -/
theorem panelStep_ok {F : Int} : ∀ {cs : List Counter} {bs : List Bool} {rs : List (Transition × Counter)},
    panelStep F cs bs = .ok rs →
    rs.length = cs.length ∧ bs.length = cs.length ∧
      ∀ (lane : Nat) (c : Counter) (b : Bool), cs[lane]? = some c → bs[lane]? = some b →
        ∃ r, laneStep F c b = some r ∧ rs[lane]? = some r
  | [], [], rs, h => by
    simp only [panelStep, Except.ok.injEq] at h; subst h; simp
  | c :: cs, b :: bs, rs, h => by
    unfold panelStep at h
    split at h
    · rename_i r rs' hr hrs
      simp only [Except.ok.injEq] at h; subst h
      obtain ⟨hl, hb, ih⟩ := panelStep_ok hrs
      refine ⟨by simp [hl], by simp [hb], ?_⟩
      intro lane c' b' hc hb'
      cases lane with
      | zero => simp only [List.getElem?_cons_zero, Option.some.injEq] at hc hb'; subst hc hb'; exact ⟨r, hr, by simp⟩
      | succ k => simp only [List.getElem?_cons_succ] at hc hb' ⊢; exact ih k c' b' hc hb'
    · cases h
    · cases h
  | [], _ :: _, _, h => by cases h
  | _ :: _, [], _, h => by cases h

/-- The panel goes through when there is a sample for every lane and every counter is in range. -/
theorem panelStep_isOk {F : Int} : ∀ {cs : List Counter} {bs : List Bool}, bs.length = cs.length →
    (∀ c ∈ cs, CounterInRange F c) → ∃ rs, panelStep F cs bs = .ok rs
  | [], [], _, _ => ⟨[], rfl⟩
  | c :: cs, b :: bs, hl, hc => by
    obtain ⟨rs, hrs⟩ := panelStep_isOk (cs := cs) (bs := bs) (by simpa using hl) fun d hd => hc d (by simp [hd])
    exact ⟨(if b then assertedStep c else unassertedStep F c) :: rs, by
      simp only [panelStep, hrs, laneStep_of_inRange (hc c (by simp)) b]⟩
  | [], _ :: _, hl, _ => by simp at hl
  | _ :: _, [], hl, _ => by simp at hl

/-- The panel is refused for a counter out of range, when there is a sample for every lane. -/
theorem panelStep_error {F : Int} : ∀ {cs : List Counter} {bs : List Bool} {r : Refusal}, bs.length = cs.length →
    panelStep F cs bs = .error r → r = .counterOutOfRange ∧ ∃ c ∈ cs, ¬ CounterInRange F c
  | [], [], r, _, h => by cases h
  | c :: cs, b :: bs, r, hl, h => by
    unfold panelStep at h
    split at h
    · cases h
    · rename_i hn
      cases h
      refine ⟨rfl, c, by simp, fun hr => ?_⟩
      rw [laneStep_of_inRange hr] at hn; cases hn
    · rename_i he _
      cases h
      obtain ⟨hr, d, hd, hn⟩ := panelStep_error (cs := cs) (bs := bs) (by simpa using hl) he
      exact ⟨hr, d, by simp [hd], hn⟩
  | [], _ :: _, _, hl, _ => by simp at hl
  | _ :: _, [], _, hl, _ => by simp at hl

/-- The only two reasons the panel is refused for. -/
theorem panelStep_error_cases {F : Int} : ∀ {cs : List Counter} {bs : List Bool} {r : Refusal},
    panelStep F cs bs = .error r → r = .counterOutOfRange ∨ r = .laneMismatch
  | [], [], _, h => by cases h
  | c :: cs, b :: bs, r, h => by
    unfold panelStep at h
    split at h
    · cases h
    · cases h; exact .inl rfl
    · rename_i he _
      cases h; exact panelStep_error_cases he
  | [], _ :: _, _, h => by cases h; exact .inr rfl
  | _ :: _, [], _, h => by cases h; exact .inr rfl

/-- Everything a DEB that goes through says. -/
theorem debounceLane_next {lane : Nat} {b : Bool} {s t : State} (h : debounceLane lane b s = .next t) :
    s.cfg.Legal ∧ s.resetDone = true ∧ lane < s.cfg.nInputs ∧
      ∃ c tr d, s.cnt[lane]? = some c ∧ laneStep s.cfg.debounceFloor c b = some (tr, d) ∧
        t = (s.writeCounter lane d).drive (Outputs.ofLane s.cfg.nInputs lane tr) := by
  obtain ⟨hl, h⟩ := onMachine_next h
  obtain ⟨hr, h⟩ := onceReset_next h
  split at h
  · cases h
  · rename_i c hc
    obtain ⟨hn, hc⟩ := readCounter_eq_some_iff.1 hc
    split at h
    · cases h
    · rename_i tr d hs
      cases h
      exact ⟨hl, hr, hn, c, tr, d, hc, hs, rfl⟩

/-- When a DEB goes through. -/
theorem debounceLane_eq {lane : Nat} {b : Bool} {s : State} {c d : Counter} {tr : Transition} (hl : s.cfg.Legal)
    (hr : s.resetDone = true) (hn : lane < s.cfg.nInputs) (hc : s.cnt[lane]? = some c)
    (hs : laneStep s.cfg.debounceFloor c b = some (tr, d)) :
    debounceLane lane b s = .next ((s.writeCounter lane d).drive (Outputs.ofLane s.cfg.nInputs lane tr)) := by
  rw [debounceLane, onMachine_of_legal hl, onceReset_of_done hr, readCounter_eq_some_iff.2 ⟨hn, hc⟩]
  simp [hs]

theorem laneOp_exec (lane : Nat) (b : Bool) (s : State) : exec (laneOp lane b) s = debounceLane lane b s := by
  cases b <;> rfl

end Sys2Proof.Machine
end

