-- ==== Sys2Proof/Laws/Mixer.lean ====
section
/-! SUPPORT. The mixer's arithmetic: the clamp, the shift, and that narrowing to 8 bits loses nothing (R96). -/

namespace Sys2Proof.Machine

theorem clampAxis_range (v : Axis) : -127 ≤ clampAxis v ∧ clampAxis v ≤ 127 := by
  unfold clampAxis clamp; omega

/-- Two clamped axes, mixed and shifted, are in the range of a MotorCommand. -/
theorem shifted_range {lin ro : Int} (h1 : -127 ≤ lin ∧ lin ≤ 127) (h2 : -127 ≤ ro ∧ ro ≤ 127) :
    (-127 ≤ (lin - ro) - saturationShift (lin - ro) (lin + ro) ∧
      (lin - ro) - saturationShift (lin - ro) (lin + ro) ≤ 127) ∧
    (-127 ≤ (lin + ro) - saturationShift (lin - ro) (lin + ro) ∧
      (lin + ro) - saturationShift (lin - ro) (lin + ro) ≤ 127) := by
  unfold saturationShift; split_ifs <;> omega

theorem mix_left_toInt (linear rot : Axis) :
    (mix linear rot).left.toInt = (clampAxis linear - clampAxis rot) -
      saturationShift (clampAxis linear - clampAxis rot) (clampAxis linear + clampAxis rot) := by
  have h := shifted_range (clampAxis_range linear) (clampAxis_range rot)
  exact toInt_ofInt_counter (by omega) (by omega)

theorem mix_right_toInt (linear rot : Axis) :
    (mix linear rot).right.toInt = -((clampAxis linear + clampAxis rot) -
      saturationShift (clampAxis linear - clampAxis rot) (clampAxis linear + clampAxis rot)) := by
  have h := shifted_range (clampAxis_range linear) (clampAxis_range rot)
  exact toInt_ofInt_counter (by omega) (by omega)

/-- The mappers inside the block never see the command -128 (R111). -/
theorem mix_cmdInContract (linear rot : Axis) :
    CmdInContract (mix linear rot).left ∧ CmdInContract (mix linear rot).right := by
  have h := shifted_range (clampAxis_range linear) (clampAxis_range rot)
  unfold CmdInContract
  rw [mix_left_toInt, mix_right_toInt]
  omega

theorem execMix_next {linear rot : Axis} {s t : State} (h : execMix linear rot s = .next t) :
    s.cfg.Legal ∧ t = s.drive (Outputs.ofMix (mix linear rot)) := by
  obtain ⟨hl, h⟩ := onMachine_next h
  cases h; exact ⟨hl, rfl⟩

end Sys2Proof.Machine
end

