-- ==== Sys2Proof/Laws/OutputMapper.lean ====
section
/-! SUPPORT. When a mapper answers, and that a channel value fits in its 32 bits (R111). -/

namespace Sys2Proof.Machine

theorem channelLevel_toNat {f : Level} {v : Nat} (hf : FloorInContract f) (hv : v ≤ 127) :
    (channelLevel f v).toNat = f.toNat + v := by
  unfold FloorInContract at hf
  simp only [channelLevel, BitVec.toNat_ofNat]; omega

theorem magnitude_le {c : MotorCommand} (h : CmdInContract c) : magnitude c ≤ 127 := by
  unfold CmdInContract at h
  unfold magnitude
  have h1 := BitVec.toInt_lt (x := c)
  have h2 := BitVec.le_toInt (x := c)
  norm_num at h1 h2
  omega

theorem toDuty_eq_ok_iff {c : MotorCommand} {b : Bool} {f : Level} {d : DutyPair} :
    toDuty c b f = .ok d ↔ CmdInContract c ∧ FloorInContract f ∧ d = dutyPair c b f := by
  unfold toDuty
  split
  · simp_all
  · split
    · simp_all
    · simp only [Except.ok.injEq]; exact ⟨fun h => ⟨not_not.1 (by assumption), not_not.1 (by assumption), h.symm⟩, fun h => h.2.2.symm⟩

theorem toDuty_of_inContract {c : MotorCommand} {f : Level} (hc : CmdInContract c) (hf : FloorInContract f)
    (b : Bool) : toDuty c b f = .ok (dutyPair c b f) := toDuty_eq_ok_iff.2 ⟨hc, hf, rfl⟩

/-- The two refusals of a mapper, the command's first (R143). -/
theorem toDuty_eq_error {c : MotorCommand} {b : Bool} {f : Level} {r : Refusal} (h : toDuty c b f = .error r) :
    (r = .cmdOutOfRange ∧ ¬ CmdInContract c) ∨
      (r = .pwmFloorOutOfRange ∧ CmdInContract c ∧ ¬ FloorInContract f) := by
  unfold toDuty at h
  split at h
  · cases h; exact .inl ⟨rfl, by assumption⟩
  · split at h
    · cases h; exact .inr ⟨rfl, not_not.1 (by assumption), by assumption⟩
    · cases h

/-- The duty pair by the command's sign (R112). -/
theorem dutyPair_of_zero {c : MotorCommand} (b : Bool) (f : Level) (h : c.toInt = 0) :
    dutyPair c b f = if b then ⟨channelLevel f 127, channelLevel f 127⟩ else ⟨0, 0⟩ := by
  cases b <;> simp [dutyPair, dutyCase, h]

theorem dutyPair_of_neg {c : MotorCommand} (b : Bool) (f : Level) (h : c.toInt < 0) :
    dutyPair c b f = ⟨channelLevel f (magnitude c), 0⟩ := by
  simp [dutyPair, dutyCase, h, Int.ne_of_lt h]

theorem dutyPair_of_pos {c : MotorCommand} (b : Bool) (f : Level) (h : 0 < c.toInt) :
    dutyPair c b f = ⟨0, channelLevel f (magnitude c)⟩ := by
  have h1 : ¬ c.toInt = 0 := by omega
  have h2 : ¬ c.toInt < 0 := by omega
  simp [dutyPair, dutyCase, h1, h2]

theorem execDuty_next {c : MotorCommand} {b : Bool} {f : Level} {s t : State} (h : execDuty c b f s = .next t) :
    s.cfg.Legal ∧ ∃ d, toDuty c b f = .ok d ∧ t = s.drive (Outputs.ofDuty d) := by
  obtain ⟨hl, h⟩ := onMachine_next h
  split at h
  · cases h
  · rename_i d hd
    cases h; exact ⟨hl, d, hd, rfl⟩

end Sys2Proof.Machine
end

