-- ==== Sys2Proof/Laws/CoreStep.lean ====
section
/-! SUPPORT. What POLL, RESET and a clock edge can do, said once. -/

namespace Sys2Proof.Machine

/-- Everything a POLL that goes through says. -/
theorem execPoll_next {samples : List Bool} {linear rot : Axis} {bl br : Bool} {f : Level} {s t : State}
    (h : execPoll samples linear rot bl br f s = .next t) :
    s.cfg.Legal ∧ s.resetDone = true ∧ FloorInContract f ∧ samples.length = s.cfg.nInputs ∧
      ∃ lanes, panelStep s.cfg.debounceFloor s.cnt samples = .ok lanes ∧
        t = (s.writePanel (lanes.map Prod.snd)).drive (Outputs.ofPoll (lanes.map Prod.fst) (mix linear rot)
          (dutyPair (mix linear rot).left bl f) (dutyPair (mix linear rot).right br f)) := by
  obtain ⟨hl, h⟩ := onMachine_next h
  obtain ⟨hr, h⟩ := onceReset_next h
  split at h
  · cases h
  · rename_i hf
    split at h
    · cases h
    · rename_i hn
      split at h
      · cases h
      · rename_i lanes hp
        simp only [toDuty_of_inContract (mix_cmdInContract linear rot).1 (not_not.1 hf),
          toDuty_of_inContract (mix_cmdInContract linear rot).2 (not_not.1 hf)] at h
        cases h
        exact ⟨hl, hr, not_not.1 hf, not_not.1 hn, lanes, hp, rfl⟩

/-- When a POLL goes through. -/
theorem execPoll_eq {samples : List Bool} {linear rot : Axis} {bl br : Bool} {f : Level} {s : State}
    {lanes : List (Transition × Counter)} (hl : s.cfg.Legal) (hr : s.resetDone = true) (hf : FloorInContract f)
    (hn : samples.length = s.cfg.nInputs) (hp : panelStep s.cfg.debounceFloor s.cnt samples = .ok lanes) :
    execPoll samples linear rot bl br f s =
      .next ((s.writePanel (lanes.map Prod.snd)).drive (Outputs.ofPoll (lanes.map Prod.fst) (mix linear rot)
          (dutyPair (mix linear rot).left bl f) (dutyPair (mix linear rot).right br f))) := by
  rw [execPoll, onMachine_of_legal hl, onceReset_of_done hr, if_neg (not_not.2 hf), if_neg (not_not.2 hn), hp]
  simp only [toDuty_of_inContract (mix_cmdInContract linear rot).1 hf,
    toDuty_of_inContract (mix_cmdInContract linear rot).2 hf]

/-- Why a POLL with a sample for every lane can be refused. -/
theorem execPoll_refused {samples : List Bool} {linear rot : Axis} {bl br : Bool} {f : Level} {s : State}
    {r : Refusal} (hlen : samples.length = s.cnt.length)
    (h : execPoll samples linear rot bl br f s = .refused r) :
    configRefusal s.cfg = some r ∨ (r = .pwmFloorOutOfRange ∧ ¬ FloorInContract f) ∨
      (r = .laneMismatch ∧ samples.length ≠ s.cfg.nInputs) ∨
      (r = .counterOutOfRange ∧ ∃ c ∈ s.cnt, ¬ CounterInRange s.cfg.debounceFloor c) := by
  rcases onMachine_refused h with h | ⟨-, h⟩
  · exact .inl h
  · obtain ⟨-, h⟩ := onceReset_refused h
    split at h
    · cases h; exact .inr (.inl ⟨rfl, by assumption⟩)
    · rename_i hf
      split at h
      · cases h; exact .inr (.inr (.inl ⟨rfl, by assumption⟩))
      · split at h
        · rename_i e hp
          cases h; exact .inr (.inr (.inr (panelStep_error hlen hp)))
        · simp only [toDuty_of_inContract (mix_cmdInContract linear rot).1 (not_not.1 hf),
            toDuty_of_inContract (mix_cmdInContract linear rot).2 (not_not.1 hf)] at h
          cases h

theorem execReset_next {s t : State} (h : execReset s = .next t) :
    s.cfg.Legal ∧ t = s.clearCounters.drive Outputs.undriven := by
  obtain ⟨hl, h⟩ := onMachine_next h
  cases h; exact ⟨hl, rfl⟩

/-- The three things a clock edge that goes through can be (R134, R135). -/
theorem clockEdge_next {p : Ports} {s t : State} (h : clockEdge p s = .next t) :
    (p.rst = true ∧ s.cfg.Legal ∧ t = s.clearCounters.drive (restingOutputs s.cfg.nInputs p)) ∨
    (p.rst = false ∧ p.pollEn = true ∧
      execPoll p.samples p.linear p.rot p.brakeL p.brakeR p.pwmFloor s = .next t) ∨
    (p.rst = false ∧ p.pollEn = false ∧ s.cfg.Legal ∧ t = s.drive (restingOutputs s.cfg.nInputs p)) := by
  unfold clockEdge at h
  split at h
  · obtain ⟨hl, h⟩ := onMachine_next h
    cases h; exact .inl ⟨by assumption, hl, rfl⟩
  · split at h
    · exact .inr (.inl ⟨by simpa using ‹¬ p.rst = true›, by assumption, h⟩)
    · obtain ⟨hl, h⟩ := onMachine_next h
      cases h
      exact .inr (.inr ⟨by simpa using ‹¬ p.rst = true›, by simpa using ‹¬ p.pollEn = true›, hl, rfl⟩)

end Sys2Proof.Machine
end

