-- ==== Sys2Proof/Laws/Decode.lean ====
section
/-! SUPPORT. The decoder format by format, and the fields of a word laid out low bits first. -/

namespace Sys2Proof

@[simp] theorem width_deb (n lane : Nat) : (Format.deb lane).width n = 1 := rfl
@[simp] theorem width_mix (n : Nat) : Format.mix.width n = 32 := rfl
@[simp] theorem width_duty (n : Nat) : Format.duty.width n = 41 := rfl
@[simp] theorem width_poll (n : Nat) : Format.poll.width n = n + 66 := rfl
@[simp] theorem width_rst (n : Nat) : Format.rst.width n = 1 := rfl

theorem decode_of_width_le {n w : Nat} {f : Format} (h : 2 ^ f.width n ≤ w) :
    decode n f w = .error (.wordTooWide f) := by simp [decode, h]

theorem lt_width_of_decode_ok {n w : Nat} {f : Format} {i : Instr} (h : decode n f w = .ok i) :
    w < 2 ^ f.width n := by
  by_contra hw
  rw [decode_of_width_le (not_lt.1 hw)] at h; cases h

theorem bitAt_zero (w : Nat) : bitAt w 0 = decide (w % 2 = 1) := by simp [bitAt, bitField]

theorem decode_deb (n lane w : Nat) : decode n (.deb lane) w =
    if 2 ≤ w then .error (.wordTooWide (.deb lane))
    else if n ≤ lane then .error (.noSuchLane lane)
    else if w = 1 then .ok (.debS1 lane) else .ok (.debS0 lane) := by
  by_cases h : 2 ≤ w
  · simp [decode, Format.width, h]
  · have h' : w = 0 ∨ w = 1 := by omega
    rcases h' with rfl | rfl <;> simp [decode, Format.width, bitAt_zero]

theorem decode_mix {w : Nat} (n : Nat) (h : w < 2 ^ 32) : decode n .mix w = .ok (decodeMix w) :=
  if_neg (Nat.not_le.2 h)

theorem decode_duty {w : Nat} (n : Nat) (h : w < 2 ^ 41) : decode n .duty w = .ok (decodeDuty w) :=
  if_neg (Nat.not_le.2 h)

theorem decode_poll {n w : Nat} (h : w < 2 ^ (n + 66)) : decode n .poll w = .ok (decodePoll n w) :=
  if_neg (Nat.not_le.2 h)

theorem decode_rst (n w : Nat) : decode n .rst w =
    if 2 ≤ w then .error (.wordTooWide .rst) else if w = 1 then .ok .reset else .error .rstWordZero := by
  by_cases h : 2 ≤ w
  · simp [decode, Format.width, h]
  · have h' : w = 0 ∨ w = 1 := by omega
    rcases h' with rfl | rfl <;> simp [decode, Format.width, bitAt_zero]

theorem bitAt_succ (w i : Nat) : bitAt w (i + 1) = bitAt (w / 2) i := by
  simp [bitAt, bitField, pow_succ', Nat.div_div_eq_div_mul]

/-- Fields above the first `n` bits are fields of what those bits leave. -/
theorem bitField_add (w n lo k : Nat) : bitField w (n + lo) k = bitField (w / 2 ^ n) lo k := by
  simp [bitField, pow_add, Nat.div_div_eq_div_mul]

theorem bitAt_add (w n lo : Nat) : bitAt w (n + lo) = bitAt (w / 2 ^ n) lo := by
  simp [bitAt, bitField_add]

/-- One bit as a number. -/
theorem bitAt_toNat (w i : Nat) : (bitAt w i).toNat = w / 2 ^ i % 2 := by
  have h : w / 2 ^ i % 2 = 0 ∨ w / 2 ^ i % 2 = 1 := by omega
  rcases h with h | h <;> simp [bitAt, bitField, h]

theorem bitAt_eq_of_toNat {w i : Nat} {b : Bool} (h : w / 2 ^ i % 2 = b.toNat) : bitAt w i = b := by
  rw [← bitAt_toNat] at h
  revert h; cases bitAt w i <;> cases b <;> simp

@[simp] theorem sampleBits_length (n w : Nat) : (sampleBits n w).length = n := by simp [sampleBits]

theorem sampleBits_succ (n w : Nat) : sampleBits (n + 1) w = bitAt w 0 :: sampleBits n (w / 2) := by
  simp [sampleBits, List.range_succ_eq_map, bitAt_succ]

theorem packBits_lt : ∀ s : List Bool, packBits s < 2 ^ s.length
  | [] => by simp [packBits]
  | b :: bs => by
    have h1 := packBits_lt bs
    have h2 : b.toNat ≤ 1 := Bool.toNat_le b
    simp only [packBits, List.length_cons, pow_succ]
    omega

/-- The samples read back from a word whose low bits are those samples. -/
theorem sampleBits_packBits : ∀ (s : List Bool) (R : Nat), sampleBits s.length (packBits s + 2 ^ s.length * R) = s
  | [], _ => rfl
  | b :: bs, R => by
    have hb : b.toNat ≤ 1 := Bool.toNat_le b
    have e : packBits (b :: bs) + 2 ^ (b :: bs).length * R = b.toNat + 2 * (packBits bs + 2 ^ bs.length * R) := by
      simp only [packBits, List.length_cons, pow_succ]; ring
    have h1 : (b.toNat + 2 * (packBits bs + 2 ^ bs.length * R)) / 2 = packBits bs + 2 ^ bs.length * R := by omega
    have h2 : (b.toNat + 2 * (packBits bs + 2 ^ bs.length * R)) % 2 = b.toNat := by omega
    rw [e, List.length_cons, sampleBits_succ, bitAt_zero, h1, h2, sampleBits_packBits bs R]
    cases b <;> simp

theorem packBits_sampleBits : ∀ n w : Nat, packBits (sampleBits n w) = w % 2 ^ n
  | 0, w => by simp [sampleBits, packBits, Nat.mod_one]
  | n + 1, w => by
    rw [sampleBits_succ, packBits, packBits_sampleBits n, bitAt_toNat, pow_succ', Nat.mod_mul]
    simp

end Sys2Proof
end

