-- ==== Sys2Proof/Laws/PerInstr.lean ====
section
/-! SUPPORT. Facts about every operation as syntax, one lemma per constructor. -/

namespace Sys2Proof.Laws.EncodeFits

/-- The operand word of a well-formed operation fits its format (R57). -/
def Statement (i : Instr) : Prop :=
  ∀ n : Nat, i.wellFormed n = true → (encode i).2 < 2 ^ (encode i).1.width n

theorem debS1 (lane : Nat) : Statement (.debS1 lane) := fun _ _ => by simp [encode]

theorem debS0 (lane : Nat) : Statement (.debS0 lane) := fun _ _ => by simp [encode]

theorem mix (linear rot : Axis) : Statement (.mix linear rot) := fun _ _ => by
  have hl := linear.isLt
  have hr := rot.isLt
  simp only [encode, width_mix]
  omega

theorem duty (cmd : MotorCommand) (brake : Bool) (pwmFloor : Level) : Statement (.duty cmd brake pwmFloor) :=
  fun _ _ => by
    have hc := cmd.isLt
    have hb := Bool.toNat_le brake
    have hf := pwmFloor.isLt
    simp only [encode, width_duty]
    omega

theorem poll (samples : List Bool) (linear rot : Axis) (brakeL brakeR : Bool) (pwmFloor : Level) :
    Statement (.poll samples linear rot brakeL brakeR pwmFloor) := fun n h => by
  obtain rfl : samples.length = n := by simpa [Instr.wellFormed] using h
  have hs := packBits_lt samples
  have hl := linear.isLt
  have hr := rot.isLt
  have hbl := Bool.toNat_le brakeL
  have hbr := Bool.toNat_le brakeR
  have hf := pwmFloor.isLt
  simp only [encode, width_poll, pow_add]
  generalize 2 ^ samples.length = m at hs
  -- what the fields above the samples make of the word, in units of `m`
  have hi : linear.toNat + rot.toNat * 2 ^ 16 + brakeL.toNat * 2 ^ 32 + brakeR.toNat * 2 ^ 33 +
      pwmFloor.toNat * 2 ^ 34 + 1 ≤ 2 ^ 66 := by omega
  calc _ = packBits samples + m * (linear.toNat + rot.toNat * 2 ^ 16 + brakeL.toNat * 2 ^ 32 +
          brakeR.toNat * 2 ^ 33 + pwmFloor.toNat * 2 ^ 34) := by ring
    _ < m * (linear.toNat + rot.toNat * 2 ^ 16 + brakeL.toNat * 2 ^ 32 + brakeR.toNat * 2 ^ 33 +
          pwmFloor.toNat * 2 ^ 34 + 1) := by rw [Nat.mul_add m _ 1]; omega
    _ ≤ m * 2 ^ 66 := Nat.mul_le_mul_left m hi

theorem reset : Statement .reset := fun _ _ => by simp [encode]

end Sys2Proof.Laws.EncodeFits
end

