-- ==== Sys2Proof/Laws/Step.lean ====
section
/-! SUPPORT. What a step can do: the four cases of a next state, and what `advance` does with each outcome. -/

namespace Sys2Proof.Machine

/-- Everything a step that goes through can have been. -/
theorem step_next {s t : State} (h : step s = .next t) :
    (s.pending = [] ∧ s.cfg.Legal ∧ t = s.drive Outputs.undriven) ∨
    (∃ p rest, s.pending = .edge p :: rest ∧ clockEdge p (s.withPending rest) = .next t) ∨
    (∃ f w rest i, s.pending = .word f w :: rest ∧ decode s.cfg.nInputs f w = .ok i ∧
      exec i (s.withPending rest) = .next t) := by
  unfold step at h
  split at h
  · obtain ⟨hl, h⟩ := onMachine_next h
    cases h; exact .inl ⟨by assumption, hl, rfl⟩
  · exact .inr (.inl ⟨_, _, by assumption, h⟩)
  · split at h
    · exact .inr (.inr ⟨_, _, _, _, by assumption, by assumption, h⟩)
    · obtain ⟨-, h⟩ := onMachine_next h
      cases h

theorem advance_of_next {s t : State} (h : step s = .next t) : advance s = t := by simp [advance, h]

theorem advance_of_fault {s : State} {f : Fault} (h : step s = .fault f) : advance s = s.recordFault f := by
  simp [advance, h]

theorem advance_of_refused {s : State} {r : Refusal} (h : step s = .refused r) : advance s = s.recordRefusal r := by
  simp [advance, h]

/-- Something every outcome keeps, `advance` keeps. -/
theorem advance_cases {P : State → Prop} {s : State} (hn : ∀ t, step s = .next t → P t)
    (hf : ∀ f, P (s.recordFault f)) (hr : ∀ r, P (s.recordRefusal r)) : P (advance s) := by
  unfold advance
  split
  · exact hn _ (by assumption)
  · exact hf _
  · exact hr _

/-- Something `advance` keeps, every number of steps keeps. -/
theorem advanceN_induct {P : State → Prop} (h : ∀ s, P s → P (advance s)) : ∀ (k : Nat) (s : State), P s →
    P (advanceN k s)
  | 0, _, hs => hs
  | k + 1, s, hs => advanceN_induct h k (advance s) (h s hs)

end Sys2Proof.Machine
end

