-- ==== Sys2Proof/Tests/Slice0.lean ====
section
/-! SUPPORT. Tests, with expected values from 95_test_vectors.md and the spec's examples, and for every obligation
with hypotheses a concrete state and operands that meet them, clause by clause, at the edges of their ranges. -/

open Sys2Proof Sys2Proof.Machine

namespace Sys2Proof.Tests

/-- A block that has been reset, with these counters and these things presented. -/
def blk (F : Int) (cs : List Counter) (ps : List Presented := []) : State :=
  { State.afterReset { debounceFloor := F, nInputs := cs.length, resetStyle := .synchronous } with
    cnt := cs, pending := ps }

/-- A block before its first reset. -/
def fresh (F : Int) (cs : List Counter) (ps : List Presented := []) : State :=
  { blk F cs ps with resetDone := false }

/-- A clock edge with everything but these ports at rest. -/
def edge (rst pollEn : Bool) (samples : List Bool) (f : Level) : Ports :=
  { rst := rst, pollEn := pollEn, samples := samples, linear := 0, rot := 0, brakeL := true, brakeR := false,
    pwmFloor := f }

/-- The samples of R130's example: lane 4 alone asserted. -/
def lane4 : List Bool := (List.replicate 16 false).set 4 true

/-! ## Ill-formed operations -/

theorem test_wellFormed_refuses_lane_debS1 : (Instr.debS1 16).wellFormed 16 = false := by decide
theorem test_wellFormed_refuses_lane_debS0 : (Instr.debS0 1).wellFormed 1 = false := by decide
theorem test_wellFormed_refuses_samples :
    (Instr.poll [true, false] 0 0 false false 0).wellFormed 3 = false ∧
    (Instr.poll [true, false] 0 0 false false 0).wellFormed 1 = false := by decide

/-! ## Words (R57, R58, and the tables of 95_test_vectors.md) -/

theorem test_decode_deb :
    decode 16 (.deb 15) 0b1 = .ok (.debS1 15) ∧ decode 16 (.deb 0) 0b0 = .ok (.debS0 0) := ⟨rfl, rfl⟩
theorem test_decode_mix : decode 16 .mix 0xFFB00064 = .ok (.mix 100 (-80)) := rfl
theorem test_decode_duty : decode 16 .duty 0x0000000657F = .ok (.duty 127 true 50) := rfl
theorem test_decode_poll : decode 16 .poll 0x0000000C8005000640010 =
    .ok (.poll lane4 100 80 false false 50) := rfl
/-- One bit of every field of a POLL word, for N_INPUTS = 2. -/
theorem test_decode_poll_fields :
    decode 2 .poll (1 + 2 ^ 2 + 2 ^ 18) = .ok (.poll [true, false] 1 1 false false 0) ∧
    decode 2 .poll (2 ^ 1 + 2 ^ 34 + 2 ^ 36) = .ok (.poll [false, true] 0 0 true false 1) ∧
    decode 2 .poll (2 ^ 35 + 2 ^ 67) = .ok (.poll [false, false] 0 0 false true 0x80000000) := ⟨rfl, rfl, rfl⟩
theorem test_decode_rst : decode 16 .rst 1 = .ok .reset ∧ decode 16 .rst 0 = .error .rstWordZero := ⟨rfl, rfl⟩
theorem test_decode_rejects :
    decode 16 (.deb 16) 1 = .error (.noSuchLane 16) ∧ decode 16 (.deb 0) 2 = .error (.wordTooWide (.deb 0)) ∧
    decode 16 .mix (2 ^ 32) = .error (.wordTooWide .mix) ∧ decode 16 .duty (2 ^ 41) = .error (.wordTooWide .duty) ∧
    decode 16 .poll (2 ^ 82) = .error (.wordTooWide .poll) := ⟨rfl, rfl, rfl, rfl, rfl⟩
/-- An out-of-contract value is still a word of its format (log 14). -/
theorem test_decode_out_of_contract : decode 16 .duty 0x1FFFFFFFE80 = .ok (.duty (-128) false 0xFFFFFFFF) := rfl
theorem test_encode_mix : encode (.mix 50 (-100)) = (.mix, 0xFF9C0032) := rfl
theorem test_encode_poll :
    encode (.poll ((List.replicate 16 false).set 8 true) 128 (-128) false false 50) =
      (.poll, 0x0000000C8FF8000800100) := rfl
theorem test_decodeTableWord :
    decodeTableWord 32 0x00500064 = some (.mix 100 80) ∧ decodeTableWord 48 0x000000064DF = some (.duty (-33) false 50) ∧
    decodeTableWord 8 0 = some (.debS0 0) ∧
    decodeTableWord 88 0x0000000C8005000640010 = some (.poll lane4 100 80 false false 50) := ⟨rfl, rfl, rfl, rfl⟩
theorem test_neutral_word : encode (neutral 16 50) = (.poll, 0x0000000C8000000000000) := rfl

/-! ## One step of each operation -/

/-- Section 2.1: `F = -3`, `c = -3`, asserted: Pressed, 1; the other lane stays. -/
theorem test_debS1_presses :
    (nextOf (exec (.debS1 0) (blk (-3) [-3, -2]))).map (fun t => (t.cnt, t.out.transAt 0, t.out.transAt 1)) =
      some ([1, -2], some .pressed, none) := rfl
theorem test_debS1_held :
    (nextOf (exec (.debS1 1) (blk (-3) [0, 1]))).map (fun t => (t.cnt, t.out.transAt 1)) =
      some ([0, 1], some .unchanged) := rfl
/-- Section 2.1: `F = -127`, `c = -126`, unasserted: Released, -127. -/
theorem test_debS0_releases :
    (nextOf (exec (.debS0 0) (blk (-127) [-126]))).map (fun t => (t.cnt, t.out.transAt 0)) =
      some ([-127], some .released) := rfl
theorem test_debS0_clamps :
    (nextOf (exec (.debS0 0) (blk (-127) [-127]))).map (fun t => (t.cnt, t.out.transAt 0)) =
      some ([-127], some .unchanged) := rfl
/-- Section 2.2: the case "l under", with both inputs clamped. -/
theorem test_mix_clamps :
    (nextOf (exec (.mix (-32768) 32767) (blk (-3) [0]))).map (fun t => (t.out.left, t.out.right)) =
      some (some (-127), some (-127)) := rfl
/-- Section 2.2: the case "r under". -/
theorem test_mix_shifts :
    (nextOf (exec (.mix (-100) (-50)) (fresh (-3) [0]))).map (fun t => (t.out.left, t.out.right)) =
      some (some (-27), some 127) := rfl
/-- Section 2.3: brake at the largest floor. -/
theorem test_duty_brake :
    (nextOf (exec (.duty 0 true 0xFFFFFF80) (blk (-3) [0]))).map (fun t => t.out.chan) =
      some (some ⟨0xFFFFFFFF, 0xFFFFFFFF⟩) := rfl
/-- Section 2.3: reverse; the brake is ignored. -/
theorem test_duty_reverse :
    (nextOf (exec (.duty (-127) true 50) (blk (-3) [0]))).map (fun t => t.out.chan) = some (some ⟨177, 0⟩) := rfl
/-- R130's example. -/
theorem test_poll_example :
    (nextOf (exec (.poll lane4 100 80 false false 50) State.reset)).map
        (fun t => (t.cnt, t.out.transAt 4, t.out.left, t.out.right, t.out.dutyL, t.out.dutyR)) =
      some ((List.replicate 16 (-1)).set 4 1, some .pressed, some (-33), some (-127), some ⟨83, 0⟩, some ⟨177, 0⟩) := rfl
/-- Section 2.4: the whole step is refused. -/
theorem test_poll_refused :
    refusalOf (exec (.poll lane4 100 80 false false 0xFFFFFF81) State.reset) = some .pwmFloorOutOfRange := rfl
/-- Section 2.5. -/
theorem test_reset_clears :
    (nextOf (exec .reset (fresh (-3) [1, 7]))).map (fun t => (t.cnt, t.resetDone)) = some ([0, 0], true) := rfl
theorem test_fetched_word_runs :
    (nextOf (step (State.reset.withFetchWord 32 0x00500064))).map (fun t => (t.out.left, t.out.right)) =
      some (some (-33), some (-127)) := rfl

/-! ## Every hypothesis can be met -/

theorem test_witness_DecodeOfEncode :
    (Instr.debS1 15).wellFormed 16 = true ∧ (Instr.debS0 0).wellFormed 1 = true ∧ (Instr.mix 0 0).wellFormed 1 = true ∧
    (Instr.duty (-128) true 0xFFFFFFFF).wellFormed 1 = true ∧ (Instr.poll lane4 0 0 true true 0).wellFormed 16 = true ∧
    Instr.reset.wellFormed 1 = true := by decide

theorem test_witness_EncodeOfDecode :
    decode 16 (.deb 15) 1 = .ok (.debS1 15) ∧ decode 1 (.deb 0) 0 = .ok (.debS0 0) ∧
    decode 1 .mix 0xFFFFFFFF = .ok (.mix (-1) (-1)) ∧ decode 1 .duty 0x1FFFFFFFFFF = .ok (.duty (-1) true 0xFFFFFFFF) ∧
    decode 1 .poll (2 ^ 67 - 1) = .ok (.poll [true] (-1) (-1) true true 0xFFFFFFFF) ∧
    decode 1 .rst 1 = .ok .reset := ⟨rfl, rfl, rfl, rfl, rfl, rfl⟩

theorem test_witness_DecodeAcceptsExactly :
    (0 < 1 ∧ 15 < 16) ∧ 2 ≤ 2 ∧ (16 ≤ 16 ∧ 1 < 2) ∧ 2 ^ 32 - 1 < 2 ^ 32 ∧ 2 ^ 41 - 1 < 2 ^ 41 ∧
    2 ^ 82 - 1 < 2 ^ (16 + 66) ∧ 2 ^ (16 + 66) ≤ 2 ^ 82 := by decide

theorem test_witness_StepRunsDecodedWord :
    ((blk (-3) [0] [.word .mix 0x64]).pending = [.word .mix 0x64] ∧ decode 1 .mix 0x64 = .ok (.mix 100 0)) ∧
    ((blk (-3) [0] [.word .rst 0]).pending = [.word .rst 0] ∧ decode 1 .rst 0 = .error .rstWordZero ∧
      (blk (-3) [0]).cfg.Legal) := ⟨⟨rfl, rfl⟩, rfl, rfl, by decide⟩

theorem test_witness_ResetWinsOverPoll :
    (blk (-1) [-1] [.edge (edge true true [true] 0)]).cfg.Legal ∧
    (blk (-1) [-1] [.edge (edge true true [true] 0)]).pending = [.edge (edge true true [true] 0)] ∧
    (edge true true [true] 0).rst = true ∧ (edge true false [true] 0).rst = true := by decide

theorem test_witness_ResetEdgeOutputs :
    (fresh (-1) [7] [.edge (edge true false [true] 0xFFFFFF80)]).cfg.Legal ∧
    (fresh (-1) [7] [.edge (edge true false [true] 0xFFFFFF80)]).pending = [.edge (edge true false [true] 0xFFFFFF80)] ∧
    (edge true false [true] 0xFFFFFF80).rst = true ∧ FloorInContract (edge true false [true] 0xFFFFFF80).pwmFloor ∧
    (edge true true [true] 0xFFFFFF81).rst = true ∧ ¬ FloorInContract (edge true true [true] 0xFFFFFF81).pwmFloor ∧
    0 < (fresh (-1) [7]).cfg.nInputs := by decide

theorem test_witness_ClockEdgeStepsOrHolds :
    (blk (-3) [1] [.edge (edge false true [true] 50)]).cfg.Legal ∧
    (blk (-3) [1] [.edge (edge false true [true] 50)]).pending = [.edge (edge false true [true] 50)] ∧
    (edge false true [true] 50).rst = false ∧ (edge false true [true] 50).pollEn = true ∧
    (edge false false [true] 0xFFFFFF80).rst = false ∧ (edge false false [true] 0xFFFFFF80).pollEn = false ∧
    FloorInContract (edge false false [true] 0xFFFFFF80).pwmFloor ∧ 0 < (blk (-3) [1]).cfg.nInputs := by decide

theorem test_witness_CountersHoldWhileNothingIsPresented :
    (blk (-127) [-127, 1]).cfg.Legal ∧ (blk (-127) [-127, 1]).pending = [] := by decide

/-- The hypotheses of a DEB step of lane `lane` on the counter `c`. -/
abbrev debMet (s : State) (lane : Nat) (c : Counter) : Prop :=
  s.cfg.Legal ∧ s.resetDone = true ∧ lane < s.cfg.nInputs ∧ s.cnt[lane]? = some c ∧
  CounterInRange s.cfg.debounceFloor c

theorem test_witness_DebS1Effect :
    (debMet (blk (-127) [-127]) 0 (-127) ∧ (-127 : Counter).toInt < 1) ∧
    (debMet (blk (-3) [1, 0]) 1 0 ∧ (0 : Counter).toInt < 1) ∧
    (debMet (blk (-1) [1]) 0 1 ∧ (1 : Counter).toInt = 1) := by decide

theorem test_witness_DebS0Effect :
    (debMet (blk (-3) [0, -2]) 1 (-2) ∧ (-3 : Int) < (-2 : Counter).toInt ∧ (-2 : Counter).toInt - 1 = -3) ∧
    (debMet (blk (-3) [-1]) 0 (-1) ∧ (-3 : Int) < (-1 : Counter).toInt ∧ (-1 : Counter).toInt - 1 ≠ -3) ∧
    (debMet (blk (-1) [1]) 0 1 ∧ (-1 : Int) < (1 : Counter).toInt ∧ (1 : Counter).toInt - 1 ≠ -1) ∧
    (debMet (blk (-127) [-127]) 0 (-127) ∧ (-127 : Counter).toInt = -127) := by decide

theorem test_witness_DebTouchesItsLaneOnly :
    (∃ t, exec (laneOp 1 true) (blk (-3) [0, -3]) = .next t) ∧
    (∃ t, exec (laneOp 0 false) (blk (-3) [-2, 1]) = .next t) ∧
    (blk (-3) [1, -3]).cfg = (blk (-3) [0, -3]).cfg ∧ (blk (-3) [1, -3]).resetDone = (blk (-3) [0, -3]).resetDone ∧
    (blk (-3) [1, -3]).cnt[1]? = (blk (-3) [0, -3]).cnt[1]? := ⟨⟨_, rfl⟩, ⟨_, rfl⟩, rfl, rfl, rfl⟩

/-- A reset takes a new block to a state that is reachable. -/
theorem reachable_reset {c : Config} (h : c.Legal) : ∃ s, Reachable c s ∧ s.resetDone = true := by
  have e : step ((State.powerUp c).withPending [.word .rst 1]) =
      .next (((State.powerUp c).withPending []).clearCounters.drive Outputs.undriven) :=
    onMachine_of_legal (s := (State.powerUp c).withPending []) h _
  refine ⟨_, .advance _ (.present _ [.word .rst 1] .powerUp), ?_⟩
  simp only [advance, e]
  rfl

theorem test_witness_CounterOutOfRangeRefused :
    ((blk (-3) [2]).cfg.Legal ∧ (blk (-3) [2]).resetDone = true ∧ 0 < (blk (-3) [2]).cfg.nInputs ∧
      (blk (-3) [2]).cnt[0]? = some 2 ∧ ¬ CounterInRange (-3) 2) ∧
    ((blk (-3) [0, -4]).cnt[1]? = some (-4 : Counter) ∧ ¬ CounterInRange (-3) (-4) ∧
      (blk (-3) [0, -4]).cnt.length = (blk (-3) [0, -4]).cfg.nInputs ∧ [true, false].length = (blk (-3) [0, -4]).cfg.nInputs ∧
      FloorInContract 0xFFFFFF80) ∧
    Config.chosen.Legal ∧ ∃ s, Reachable Config.chosen s ∧ s.resetDone = true :=
  ⟨by decide, by decide, by decide, reachable_reset (by decide)⟩

theorem test_witness_LaneTable :
    ((-127 : Int) ≤ -1 ∧ (-1 : Int) ≤ -1 ∧ CounterInRange (-1) 0 ∧ (0 : Counter).toInt ≤ 0) ∧
    (CounterInRange (-127) (-127) ∧ (-127 : Counter).toInt = -127) ∧ (CounterInRange (-1) 1 ∧ (1 : Counter).toInt = 1) ∧
    (CounterInRange (-1) 0 ∧ (0 : Counter).toInt = -1 + 1) ∧ (CounterInRange (-1) 1 ∧ (-1 : Int) + 2 ≤ (1 : Counter).toInt) ∧
    (CounterInRange (-127) (-126) ∧ (-126 : Counter).toInt = -127 + 1) := by decide

theorem test_witness_LaneRunStaysInRange :
    (-127 : Int) ≤ -127 ∧ (-127 : Int) ≤ -1 ∧ CounterInRange (-127) (-127) ∧ CounterInRange (-127) 1 := by decide

/-- Program P1 of 95_test_vectors.md: lane 0, `F = -3`, from reset. -/
theorem test_witness_PressedOncePerAssertedRun :
    laneRun (-3) 0 [true, true, false, true, false, false, false, false, false, true] =
      some ([.pressed, .unchanged, .unchanged, .pressed, .unchanged, .unchanged, .unchanged, .released, .unchanged,
        .pressed], 1) := rfl

theorem test_witness_ReleasedExactlyAtTheFloor :
    laneRun (-3) 0 [false, false, false, false, true, false, false, false, false] =
      some ([.unchanged, .unchanged, .released, .unchanged, .pressed, .unchanged, .unchanged, .unchanged, .released], -3) ∧
    laneRun (-1) 0 [false, true, false, false] = some ([.released, .pressed, .unchanged, .released], -1) := ⟨rfl, rfl⟩

theorem test_witness_NoReleasedTwiceWithoutAssertion :
    CounterInRange (-1) 0 ∧
    laneRun (-1) 0 [false, true, false, false] = some ([.released, .pressed, .unchanged, .released], -1) ∧ 0 < 3 ∧
    [Transition.released, .pressed, .unchanged, .released][0]? = some .released ∧
    [Transition.released, .pressed, .unchanged, .released][3]? = some .released := ⟨by decide, rfl, by decide, rfl, rfl⟩

theorem test_witness_ShortGapPressesAgain :
    (CounterInRange (-3) (-3) ∧ 1 ≤ 3 ∧ ((3 : Nat) : Int) < 1 - (-3)) ∧
    (CounterInRange (-1) 1 ∧ 1 ≤ 1 ∧ ((1 : Nat) : Int) < 1 - (-1)) := by decide

theorem test_witness_StartUpReleasedOnce :
    ((0 : Nat) : Int) + 1 = -(-1) ∧ ((126 : Nat) : Int) + 1 = -(-127) ∧ (-127 : Int) ≤ -127 ∧ (-1 : Int) ≤ -1 := by decide

theorem test_witness_CounterAfterUnassertedRun :
    (-127 : Int) ≤ -3 ∧ (-3 : Int) ≤ -1 ∧ CounterInRange (-3) (-3) ∧ CounterInRange (-3) 1 := by decide

theorem test_witness_LaneOrderIsImmaterial :
    0 ≠ 1 ∧ ∃ t, execAll [laneOp 0 true, laneOp 1 false] (blk (-3) [0, 0]) = .next t := ⟨by decide, _, rfl⟩

theorem test_witness_MixEffect :
    (fresh (-127) [3]).cfg.Legal ∧
    min (max (129 : Axis).toInt (-127)) 127 = 127 ∧ min (max (-32768 : Axis).toInt (-127)) 127 = -127 := by decide

theorem test_witness_OneSaturationConditionAtMost :
    clampAxis 64 - clampAxis (-64) > 127 ∧ clampAxis (-64) - clampAxis 64 < -127 ∧
    clampAxis 64 + clampAxis 64 > 127 ∧ clampAxis (-64) + clampAxis (-64) < -127 := by decide

theorem test_witness_MixKeepsTheDifferential :
    CommandInRange (clampAxis 64 - clampAxis 63) ∧ CommandInRange (clampAxis 64 + clampAxis 63) := by
  constructor <;> constructor <;> decide

theorem test_witness_MixClosedForm :
    clampAxis 128 - clampAxis (-128) > 127 ∧ clampAxis (-128) - clampAxis 128 < -127 ∧
    clampAxis 128 + clampAxis 128 > 127 ∧ clampAxis (-128) + clampAxis (-128) < -127 ∧
    CommandInRange (clampAxis 0 - clampAxis 127) ∧ CommandInRange (clampAxis 0 + clampAxis 127) := by
  refine ⟨by decide, by decide, by decide, by decide, ?_, ?_⟩ <;> constructor <;> decide

theorem test_witness_MixIsPure : (blk (-3) [1]).cfg.Legal ∧ (fresh (-1) [0, 7]).cfg.Legal := by decide

theorem test_witness_DutyEffect :
    (fresh (-3) [0]).cfg.Legal ∧ (-128 : MotorCommand).toInt = -128 ∧
    ((-127 : MotorCommand).toInt ≠ -128 ∧ (0xFFFFFF81 : Level).toNat > 0xFFFFFF80) ∧
    ((0 : MotorCommand).toInt ≠ -128 ∧ (0xFFFFFF80 : Level).toNat ≤ 0xFFFFFF80 ∧ (0 : MotorCommand).toInt = 0) ∧
    ((-127 : MotorCommand).toInt ≠ -128 ∧ (-127 : MotorCommand).toInt < 0 ∧ (-1 : MotorCommand).toInt < 0) ∧
    ((127 : MotorCommand).toInt > 0 ∧ (1 : MotorCommand).toInt > 0) := by decide

theorem test_witness_MapperContract :
    (0x81#8 : MotorCommand) ≠ 0x80#8 ∧ (0x7F#8 : MotorCommand) ≠ 0x80#8 ∧ (0xFFFFFF81 : Level).toNat > 0xFFFFFF80 ∧
    (0xFFFFFFFF : Level).toNat > 0xFFFFFF80 ∧ (0xFFFFFF80 : Level).toNat ≤ 0xFFFFFF80 := by decide

theorem test_witness_DutyChannelBounds :
    toDuty 127 true 0xFFFFFF80 = .ok ⟨0, 0xFFFFFFFF⟩ ∧ toDuty (-1) false 0 = .ok ⟨1, 0⟩ ∧
    toDuty 0 false 0xFFFFFF80 = .ok ⟨0, 0⟩ ∧ toDuty 0 true 0 = .ok ⟨127, 127⟩ := ⟨rfl, rfl, rfl, rfl⟩

theorem test_witness_DutyIsPure :
    (fresh (-1) [0]).cfg.Legal ∧ ∃ t, exec (.duty (-127) true 0xFFFFFF80) (blk (-3) [0]) = .next t :=
  ⟨by decide, _, rfl⟩

theorem inv_blk : (blk (-3) [-3, 1]).Inv := ⟨by decide, by decide, by decide⟩

theorem test_witness_PartsAloneDriveTheirOwnPorts :
    (∃ t, exec (laneOp 1 false) (blk (-3) [-3, 1]) = .next t) ∧ (∃ t, exec (.mix 127 127) (fresh (-3) [0]) = .next t) ∧
    (∃ t, exec (.duty 0 true 0xFFFFFF80) (fresh (-3) [0]) = .next t) := ⟨⟨_, rfl⟩, ⟨_, rfl⟩, ⟨_, rfl⟩⟩

theorem test_witness_PollEffect :
    ((blk (-3) [-3, 1]).Inv ∧ [true, false].length = (blk (-3) [-3, 1]).cfg.nInputs ∧
      (blk (-3) [-3, 1]).resetDone = true ∧ (0xFFFFFF81 : Level).toNat > 0xFFFFFF80 ∧
      (0xFFFFFF80 : Level).toNat ≤ 0xFFFFFF80 ∧ (blk (-3) [-3, 1]).cnt[1]? = some 1 ∧ [true, false][1]? = some false) ∧
    ((fresh (-3) [7]).Inv ∧ [true].length = (fresh (-3) [7]).cfg.nInputs ∧ (fresh (-3) [7]).resetDone = false) :=
  ⟨⟨inv_blk, by decide⟩, ⟨by decide, by decide, by decide⟩, by decide⟩

theorem test_witness_PollEqualsItsParts :
    (blk (-3) [-3, 1]).Inv ∧ (∃ t, exec (.poll [true, false] 100 80 false true 50) (blk (-3) [-3, 1]) = .next t ∧
      t.out.left = some (-33) ∧ t.out.right = some (-127)) ∧ [true, false][1]? = some false :=
  ⟨inv_blk, ⟨_, rfl, rfl, rfl⟩, rfl⟩

theorem test_witness_LanesAndMotionAreIndependent :
    (∃ t, exec (.poll [true, false] 1 2 false true 0) (blk (-3) [-3, 1]) = .next t) ∧
    (∃ t, exec (.poll [true, false] 3 4 true true 0xFFFFFF80) (blk (-3) [-3, 1]) = .next t) ∧
    (∃ t, exec (.poll [false] 1 2 false true 0) (blk (-1) [0]) = .next t) := ⟨⟨_, rfl⟩, ⟨_, rfl⟩, ⟨_, rfl⟩⟩

theorem test_witness_AllZeroSnapshotDrivesFullForward :
    ∃ t, exec (.poll [true, false] 128 (-128) false false 50) (blk (-3) [0, 0]) = .next t := ⟨_, rfl⟩

/-- Two polls in a row, for `PanelRunsItsLanes`. -/
def twoPolls : List Instr :=
  [.poll [true, false] 0 0 false false 0, .poll [false, false] 100 80 true false 0xFFFFFF80]

theorem test_witness_PanelRunsItsLanes :
    (blk (-3) [-3, 1] (twoPolls.map presentInstr)).Inv ∧
    (blk (-3) [-3, 1] (twoPolls.map presentInstr)).pending = twoPolls.map presentInstr ++ [] ∧
    (blk (-3) [-3, 1] (twoPolls.map presentInstr)).cnt[0]? = some (-3 : Counter) ∧
    (∀ i ∈ twoPolls, ∃ samples linear rot bl br f,
      i = .poll samples linear rot bl br f ∧ samples.length = 2 ∧ FloorInContract f) ∧
    twoPolls.map (fun i => match i with | .poll samples _ _ _ _ _ => samples[0]? | _ => none) =
      [true, false].map some := by
  refine ⟨⟨by decide, by decide, by decide⟩, by simp [blk], rfl, ?_, rfl⟩
  intro i h
  simp only [twoPolls, List.mem_cons, List.not_mem_nil, or_false] at h
  rcases h with rfl | rfl <;> exact ⟨_, _, _, _, _, _, rfl, rfl, by decide⟩

theorem test_witness_ResetEffect :
    (fresh (-3) [1, 7]).cfg.Legal ∧ 1 < (fresh (-3) [1, 7]).cfg.nInputs ∧ (fresh (-3) [1, 7]).resetDone = false ∧
    ∃ t, exec .reset (fresh (-3) [1, 7]) = .next t ∧ t.resetDone = true := ⟨by decide, by decide, rfl, _, rfl, rfl⟩

theorem test_witness_ResetValues :
    (fresh (-127) [1, 7]).cfg.Legal ∧ 1 < (fresh (-127) [1, 7]).cfg.nInputs ∧ 15 < State.reset.cfg.nInputs := by decide

/-- A state in which a fault has been recorded. -/
def faulted : State := { blk (-3) [0] with faultRecord := some .notReset }

/-- A state that carries the refusal mark. -/
def refused : State := { blk (-3) [0] with refusalMark := some .cmdOutOfRange }

theorem test_witness_NotResetIsTheOneFault :
    ((fresh (-3) [0]).cfg.Legal ∧ (fresh (-3) [0]).resetDone = false ∧ (Instr.debS0 0).stepsLanes = true ∧
      (Instr.debS1 0).stepsLanes = true ∧ (Instr.poll [true] 0 0 false false 0).stepsLanes = true) ∧
    exec (.debS1 0) (fresh (-3) [0]) = .fault .notReset ∧
    step (fresh (-3) [0] [.word (.deb 0) 1]) = .fault .notReset ∧ faulted.faultRecord = some .notReset ∧
    ∃ t, exec .reset faulted = .next t := ⟨by decide, rfl, rfl, rfl, _, rfl⟩

theorem test_witness_RefusalsAreTheListed :
    ((blk (-3) [2]).cnt.length = (blk (-3) [2]).cfg.nInputs ∧ (Instr.debS1 0).wellFormed 1 = true ∧
      exec (.debS1 0) (blk (-3) [2]) = .refused .counterOutOfRange) ∧
    ((blk (-2) [0]).cnt.length = (blk (-2) [0]).cfg.nInputs ∧ exec .reset (blk (-2) [0]) = .refused .badFloor) ∧
    exec .reset (blk (-3) []) = .refused .badInputCount ∧
    exec (.duty (-128) false 50) (blk (-3) [0]) = .refused .cmdOutOfRange ∧
    exec (.duty 0 false 0xFFFFFF81) (blk (-3) [0]) = .refused .pwmFloorOutOfRange ∧
    step (blk (-3) [0] [.word .duty 0x00000006480]) = .refused .cmdOutOfRange ∧
    refused.refusalMark = some .cmdOutOfRange ∧
    (¬ (blk (-2) [0]).cfg.Legal ∧ ¬ (blk (-2) [0]).cfg.FloorLegal ∧ 1 ≤ (blk (-2) [0]).cfg.nInputs) ∧
    ((blk (-3) []).cfg.FloorLegal ∧ (blk (-3) []).cfg.nInputs = 0) ∧
    ((blk (-3) [-4]).cfg.Legal ∧ (blk (-3) [-4]).resetDone = true ∧ 0 < (blk (-3) [-4]).cfg.nInputs ∧
      (blk (-3) [-4]).cnt[0]? = some (-4 : Counter) ∧ ¬ CounterInRange (-3) (-4)) ∧
    ((blk (-3) [0, 2]).cnt.length = (blk (-3) [0, 2]).cfg.nInputs ∧ [true, false].length = (blk (-3) [0, 2]).cfg.nInputs ∧
      FloorInContract 0xFFFFFF80 ∧ (blk (-3) [0, 2]).cnt[1]? = some (2 : Counter) ∧ ¬ CounterInRange (-3) 2) ∧
    ((127 : MotorCommand) ≠ -128 ∧ (0xFFFFFFFF : Level).toNat > 0xFFFFFF80) :=
  ⟨⟨rfl, rfl, rfl⟩, ⟨rfl, rfl⟩, rfl, rfl, rfl, rfl, rfl, by decide, by decide, by decide, by decide, by decide⟩

theorem test_witness_FirstRefusalReasonStays : refused.refusalMark = some .cmdOutOfRange := rfl

/-- Section 2.6: the configurations that are refused, and those that are legal. -/
theorem test_witness_ConfigurationContract :
    refusalOf (build ⟨-2, 16, .synchronous⟩) = some .badFloor ∧ refusalOf (build ⟨0, 16, .synchronous⟩) = some .badFloor ∧
    refusalOf (build ⟨1, 16, .synchronous⟩) = some .badFloor ∧ refusalOf (build ⟨-129, 16, .synchronous⟩) = some .badFloor ∧
    refusalOf (build ⟨-3, 0, .asynchronous⟩) = some .badInputCount ∧
    (⟨-1, 1, .synchronous⟩ : Config).Legal ∧ (⟨-127, 16, .synchronous⟩ : Config).Legal ∧
    ((1 : Int) % 2 ≠ 0 ∧ (0 : Int) ≤ 1 ∧ (-129 : Int) % 2 ≠ 0 ∧ (-129 : Int) < -127) := by decide

theorem test_witness_OutcomePriority :
    ¬ (blk 0 [0]).cfg.Legal ∧
    ((fresh (-3) [2]).cfg.Legal ∧ (fresh (-3) [2]).resetDone = false ∧
      (Instr.poll [true] 0 0 false false 0xFFFFFFFF).stepsLanes = true) ∧
    ((blk (-3) [2]).cfg.Legal ∧ (blk (-3) [2]).resetDone = true ∧ ¬ FloorInContract 0xFFFFFF81) ∧
    ((128 : Int) > 127 ∧ (-128 : Int) < -127) ∧ CommandInRange 127 ∧ CommandInRange (-127) := by
  refine ⟨by decide, by decide, by decide, by decide, ?_, ?_⟩ <;> constructor <;> decide

theorem test_witness_StepKeepsCountersInRange :
    (blk (-3) [-3, 1] [.word (.deb 0) 1]).Inv ∧ (∃ t, step (blk (-3) [-3, 1] [.word (.deb 0) 1]) = .next t) ∧
    (fresh (-3) [7] [.word .rst 1]).Inv ∧ ∃ t, step (fresh (-3) [7] [.word .rst 1]) = .next t :=
  ⟨⟨by decide, by decide, by decide⟩, ⟨_, rfl⟩, ⟨by decide, by decide, by decide⟩, _, rfl⟩

theorem test_witness_AdvanceKeepsCountersInRange :
    (blk (-3) [-3, 1]).Inv ∧ (fresh (-3) [7] [.word (.deb 0) 1]).Inv ∧
    step (fresh (-3) [7] [.word (.deb 0) 1]) = .fault .notReset :=
  ⟨inv_blk, ⟨by decide, by decide, by decide⟩, rfl⟩

theorem test_witness_ResetMeetsTheCounterBounds :
    Config.chosen.Legal ∧ (⟨-1, 1, .asynchronous⟩ : Config).Legal ∧ (⟨-127, 14, .synchronous⟩ : Config).Legal := by decide

theorem test_witness_ReachableStatesMeetTheBounds :
    Config.chosen.Legal ∧ Reachable Config.chosen (State.powerUp Config.chosen) ∧
    ∃ s, Reachable Config.chosen s ∧ s.resetDone = true := ⟨by decide, .powerUp, reachable_reset (by decide)⟩

theorem test_witness_NoStepDrivesCommandOutOfRange :
    ∃ t, step (fresh (-3) [7] [.word .mix 0x007FFF81]) = .next t ∧ t.out.left = some (-127) ∧
      t.out.right = some (-127) := ⟨_, rfl, rfl, rfl⟩

theorem test_witness_InContractStepCompletes :
    ((blk (-3) [-3, 1] [.edge (edge false true [true, false] 0xFFFFFF80)]).Inv ∧
      (Presented.edge (edge false true [true, false] 0xFFFFFF80)).InContract 2 ∧
      (blk (-3) [-3, 1]).resetDone = true) ∧
    ((fresh (-3) [7] [.word .duty 0x00000006481]).Inv ∧ (Presented.word .duty 0x00000006481).InContract 1 ∧
      ¬ (Presented.word .duty 0x00000006481).StepsLanes 1) := by
  refine ⟨⟨⟨by decide, by decide, by decide⟩, ⟨rfl, by decide⟩, rfl⟩, ⟨by decide, by decide, by decide⟩,
    ⟨.duty (-127) false 50, rfl, by decide⟩, ?_⟩
  rintro ⟨i, h, hs⟩
  cases h
  cases hs

theorem test_witness_OperationFrame :
    (∃ t, exec (.mix 1 2) (blk (-3) [0]) = .next t) ∧ (Instr.mix 1 2).stepsLanes = false ∧ Instr.mix 1 2 ≠ .reset ∧
    (∃ t, exec (.debS0 0) (blk (-3) [0]) = .next t) ∧ (blk (-3) [0]).cnt.length = (blk (-3) [0]).cfg.nInputs :=
  ⟨⟨_, rfl⟩, rfl, by decide, ⟨_, rfl⟩, rfl⟩

theorem test_witness_TiedFloorIsNeverRefused :
    FloorInContract 50 ∧
    FloorTied 50 (blk (-3) [0] [.word .duty 0x000000064DF, .edge (edge false true [true] 50), .word .mix 7]) := by
  refine ⟨by decide, ?_⟩
  intro p h
  simp only [blk, List.mem_cons, List.not_mem_nil, or_false] at h
  rcases h with rfl | rfl | rfl <;> first | rfl | trivial

end Sys2Proof.Tests
end

