-- ==== Sys2Proof/Proofs/Scope.lean ====
section
/-! PROOFS. The configuration (00_scope.md): which configurations have a machine (R5, R6), that no step writes the
configuration (R28, R170), and that RESET_STYLE does not matter to a step (R9). -/

open Sys2Proof Sys2Proof.Machine

namespace Sys2Proof.Machine

/-! ## Building a block -/

theorem configRefusal_of_not_floorLegal {c : Config} (h : ¬ c.FloorLegal) : configRefusal c = some .badFloor :=
  if_pos h

theorem configRefusal_of_not_countLegal {c : Config} (hf : c.FloorLegal) (hc : ¬ c.CountLegal) :
    configRefusal c = some .badInputCount := by
  rw [configRefusal, if_neg (not_not.2 hf), if_pos hc]

theorem build_of_configRefusal {c : Config} {r : Refusal} (h : configRefusal c = some r) :
    build c = .refused r := by
  simp [build, onMachine, h]

theorem build_of_legal {c : Config} (h : c.Legal) : build c = .next (State.powerUp c) :=
  onMachine_of_legal (s := State.powerUp c) h _

/-- An even, zero, positive or below -127 floor, as R5 words it. -/
theorem not_floorLegal_of_bad {c : Config}
    (h : c.debounceFloor % 2 = 0 ∨ 0 ≤ c.debounceFloor ∨ c.debounceFloor < -127) : ¬ c.FloorLegal := by
  rintro ⟨hodd, hlow, hhigh⟩
  omega

/-! ## No step writes the configuration -/

theorem debounceLane_cfg {lane : Nat} {b : Bool} {s t : State} (h : debounceLane lane b s = .next t) :
    t.cfg = s.cfg := by
  obtain ⟨-, -, -, _, _, _, -, -, rfl⟩ := debounceLane_next h
  simp

theorem execPoll_cfg {samples : List Bool} {linear rot : Axis} {bl br : Bool} {f : Level} {s t : State}
    (h : execPoll samples linear rot bl br f s = .next t) : t.cfg = s.cfg := by
  obtain ⟨-, -, -, -, _, -, rfl⟩ := execPoll_next h
  simp

theorem exec_cfg {i : Instr} {s t : State} (h : exec i s = .next t) : t.cfg = s.cfg := by
  cases i with
  | debS1 lane => exact debounceLane_cfg (b := true) h
  | debS0 lane => exact debounceLane_cfg (b := false) h
  | mix linear rot =>
    obtain ⟨-, rfl⟩ := execMix_next h
    simp
  | duty cmd brake pwmFloor =>
    obtain ⟨-, _, -, rfl⟩ := execDuty_next h
    simp
  | poll samples linear rot brakeL brakeR pwmFloor => exact execPoll_cfg h
  | reset =>
    obtain ⟨-, rfl⟩ := execReset_next h
    simp

theorem clockEdge_cfg {p : Ports} {s t : State} (h : clockEdge p s = .next t) : t.cfg = s.cfg := by
  rcases clockEdge_next h with ⟨-, -, rfl⟩ | ⟨-, -, hpoll⟩ | ⟨-, -, -, rfl⟩
  · simp
  · exact execPoll_cfg hpoll
  · simp

theorem step_cfg {s t : State} (h : step s = .next t) : t.cfg = s.cfg := by
  rcases step_next h with ⟨-, -, rfl⟩ | ⟨_, _, -, hedge⟩ | ⟨_, _, _, _, -, -, hexec⟩
  · simp
  · simpa using clockEdge_cfg hedge
  · simpa using exec_cfg hexec

@[simp] theorem advance_cfg (s : State) : (advance s).cfg = s.cfg :=
  advance_cases (P := fun t => t.cfg = s.cfg) (fun _ => step_cfg) (fun _ => rfl) (fun _ => rfl)

@[simp] theorem advanceN_cfg (k : Nat) (s : State) : (advanceN k s).cfg = s.cfg :=
  advanceN_induct (P := fun t => t.cfg = s.cfg) (fun t ht => (advance_cfg t).trans ht) k s rfl

/-! ## What a function of the next state does with the guards -/

/-- The same outcome with `g` applied to the next state, if there is one. -/
def mapNext (g : State → State) : Result → Result
  | .next t => .next (g t)
  | .fault f => .fault f
  | .refused r => .refused r

@[simp] theorem mapNext_next (g : State → State) (t : State) : mapNext g (.next t) = .next (g t) := rfl
@[simp] theorem mapNext_fault (g : State → State) (f : Fault) : mapNext g (.fault f) = .fault f := rfl
@[simp] theorem mapNext_refused (g : State → State) (r : Refusal) : mapNext g (.refused r) = .refused r := rfl

theorem mapNext_onMachine (g : State → State) (s : State) (k : Result) :
    mapNext g (onMachine s k) = onMachine s (mapNext g k) := by
  by_cases hl : s.cfg.Legal
  · simp only [onMachine_of_legal hl]
  · obtain ⟨r, -, hk⟩ := onMachine_of_not_legal hl
    simp [hk]

theorem mapNext_onceReset (g : State → State) (s : State) (k : Result) :
    mapNext g (onceReset s k) = onceReset s (mapNext g k) := by
  unfold onceReset
  split <;> rfl

/-! ## A step commutes with a change of RESET_STYLE -/

/-- The state with another RESET_STYLE (R9). -/
def State.withStyle (s : State) (style : ResetStyle) : State :=
  { s with cfg := { s.cfg with resetStyle := style } }

section
variable (style : ResetStyle) (s : State)

@[simp] theorem State.withStyle_debounceFloor : (s.withStyle style).cfg.debounceFloor = s.cfg.debounceFloor := rfl
@[simp] theorem State.withStyle_nInputs : (s.withStyle style).cfg.nInputs = s.cfg.nInputs := rfl
@[simp] theorem State.withStyle_cnt : (s.withStyle style).cnt = s.cnt := rfl
@[simp] theorem State.withStyle_pending : (s.withStyle style).pending = s.pending := rfl
@[simp] theorem State.drive_withStyle (o : Outputs) : (s.withStyle style).drive o = (s.drive o).withStyle style := rfl
@[simp] theorem State.writeCounter_withStyle (lane : Nat) (v : Counter) :
    (s.withStyle style).writeCounter lane v = (s.writeCounter lane v).withStyle style := rfl
@[simp] theorem State.writePanel_withStyle (cs : List Counter) :
    (s.withStyle style).writePanel cs = (s.writePanel cs).withStyle style := rfl
@[simp] theorem State.clearCounters_withStyle :
    (s.withStyle style).clearCounters = s.clearCounters.withStyle style := rfl
@[simp] theorem State.withPending_withStyle (ps : List Presented) :
    (s.withStyle style).withPending ps = (s.withPending ps).withStyle style := rfl
@[simp] theorem State.readCounter_withStyle (lane : Nat) :
    (s.withStyle style).readCounter lane = s.readCounter lane := rfl
@[simp] theorem onMachine_withStyle (k : Result) : onMachine (s.withStyle style) k = onMachine s k := rfl
@[simp] theorem onceReset_withStyle (k : Result) : onceReset (s.withStyle style) k = onceReset s k := rfl

end

/-- `k` answers in a state of another style what it answers in the state itself, the style apart. -/
def StyleBlind (k : State → Result) : Prop :=
  ∀ (s : State) (style : ResetStyle), k (s.withStyle style) = mapNext (·.withStyle style) (k s)

theorem debounceLane_styleBlind (lane : Nat) (b : Bool) : StyleBlind (debounceLane lane b) := by
  intro s style
  simp only [debounceLane, mapNext_onMachine, mapNext_onceReset, onMachine_withStyle, onceReset_withStyle,
    State.readCounter_withStyle, State.withStyle_debounceFloor]
  congr 2
  cases s.readCounter lane with
  | none => rfl
  | some c =>
    dsimp only
    cases laneStep s.cfg.debounceFloor c b <;> rfl

theorem execMix_styleBlind (linear rot : Axis) : StyleBlind (execMix linear rot) := by
  intro s style
  simp [execMix, mapNext_onMachine]

theorem execDuty_styleBlind (cmd : MotorCommand) (brake : Bool) (pwmFloor : Level) :
    StyleBlind (execDuty cmd brake pwmFloor) := by
  intro s style
  simp only [execDuty, mapNext_onMachine, onMachine_withStyle]
  cases toDuty cmd brake pwmFloor <;> rfl

theorem execPoll_styleBlind (samples : List Bool) (linear rot : Axis) (bl br : Bool) (f : Level) :
    StyleBlind (execPoll samples linear rot bl br f) := by
  intro s style
  simp only [execPoll, mapNext_onMachine, mapNext_onceReset, onMachine_withStyle, onceReset_withStyle,
    State.withStyle_nInputs, State.withStyle_debounceFloor, State.withStyle_cnt]
  congr 2
  by_cases hf : FloorInContract f
  · by_cases hn : samples.length = s.cfg.nInputs
    · cases panelStep s.cfg.debounceFloor s.cnt samples with
      | error r => simp [hf, hn]
      | ok lanes =>
        obtain ⟨hl, hr⟩ := mix_cmdInContract linear rot
        simp [hf, hn, toDuty_of_inContract hl hf, toDuty_of_inContract hr hf]
    · simp [hf, hn]
  · simp [hf]

theorem execReset_styleBlind : StyleBlind execReset := by
  intro s style
  simp [execReset, mapNext_onMachine]

theorem exec_styleBlind (i : Instr) : StyleBlind (exec i) := by
  cases i with
  | debS1 lane => exact debounceLane_styleBlind lane true
  | debS0 lane => exact debounceLane_styleBlind lane false
  | mix linear rot => exact execMix_styleBlind linear rot
  | duty cmd brake pwmFloor => exact execDuty_styleBlind cmd brake pwmFloor
  | poll samples linear rot bl br f => exact execPoll_styleBlind samples linear rot bl br f
  | reset => exact execReset_styleBlind

theorem clockEdge_styleBlind (p : Ports) : StyleBlind (clockEdge p) := by
  intro s style
  unfold clockEdge
  split
  · simp [resetEdge, mapNext_onMachine]
  · split
    · exact execPoll_styleBlind _ _ _ _ _ _ s style
    · simp [idleEdge, mapNext_onMachine]

theorem awaitEnvironment_styleBlind : StyleBlind awaitEnvironment := by
  intro s style
  simp [awaitEnvironment, mapNext_onMachine]

theorem rejectWord_styleBlind (e : DecodeError) : StyleBlind (rejectWord e) := by
  intro s style
  simp [rejectWord, mapNext_onMachine]

theorem step_styleBlind : StyleBlind step := by
  intro s style
  simp only [step, State.withStyle_pending, State.withStyle_nInputs, State.withPending_withStyle]
  split
  · exact awaitEnvironment_styleBlind s style
  · exact clockEdge_styleBlind _ _ style
  · split
    · exact exec_styleBlind _ _ style
    · exact rejectWord_styleBlind _ _ style

end Sys2Proof.Machine

/-- Settles O50: every operation, clock edge, wait and rejection is blind to the style, so `step` is. -/
theorem resetStyleChangesNothing : Obligations.ResetStyleChangesNothing := by
  unfold Obligations.ResetStyleChangesNothing
  intro s style
  refine (step_styleBlind s style).trans ?_
  cases step s <;> rfl

/-- Settles O42: the refusals from the configuration guard of `build`, the constancy from the frame of `advance`. -/
theorem configurationContract : Obligations.ConfigurationContract := by
  unfold Obligations.ConfigurationContract
  refine ⟨fun c hbad _ => ?_, fun c hbad _ => .inl ?_, fun c hodd hlow hhigh hn => ?_,
    fun c hodd hlow hhigh hn => build_of_legal ⟨⟨hodd, hlow, hhigh⟩, hn⟩, fun s k => advanceN_cfg k s⟩
  · exact build_of_configRefusal (configRefusal_of_not_floorLegal (not_floorLegal_of_bad hbad))
  · exact build_of_configRefusal (configRefusal_of_not_floorLegal (not_floorLegal_of_bad hbad))
  · exact build_of_configRefusal (configRefusal_of_not_countLegal ⟨hodd, hlow, hhigh⟩ (by simp [Config.CountLegal, hn]))
end

