-- ==== Sys2Proof/Proofs/State.lean ====
section
/-! PROOFS. The counters at reset (10_state.md): RESET completes on every legal block, and the 0 it writes to every
counter lies in [F, 1] (R21, R31). -/

open Sys2Proof Sys2Proof.Machine

namespace Sys2Proof.Machine

/-- When RESET goes through, and what it leaves (R133). -/
theorem execReset_of_legal {s : State} (h : s.cfg.Legal) :
    execReset s = .next (s.clearCounters.drive Outputs.undriven) :=
  onMachine_of_legal h _

theorem counterInRange_zero {c : Config} (h : c.FloorLegal) : CounterInRange c.debounceFloor 0 := by
  obtain ⟨-, -, hneg⟩ := h
  have hzero : (0 : Counter).toInt = 0 := BitVec.toInt_zero
  exact ⟨by omega, by omega⟩

theorem clearCounters_cnt_getElem? {s : State} {lane : Nat} (h : lane < s.cfg.nInputs) :
    s.clearCounters.cnt[lane]? = some 0 :=
  List.getElem?_replicate_of_lt h

theorem afterReset_cnt_getElem? {c : Config} {lane : Nat} (h : lane < c.nInputs) :
    (State.afterReset c).cnt[lane]? = some 0 :=
  List.getElem?_replicate_of_lt h

end Sys2Proof.Machine

/-- Settles O39: RESET completes on a legal block and a cleared lane holds 0, which a legal floor, being negative,
admits; the model's state after reset is one with its counters cleared. -/
theorem resetValues : Obligations.ResetValues := by
  unfold Obligations.ResetValues
  refine ⟨fun s hlegal => ⟨_, execReset_of_legal hlegal, fun lane => clearCounters_cnt_getElem?, ?_,
    counterInRange_zero hlegal.1⟩, fun lane => afterReset_cnt_getElem?, ?_⟩
  · simp
  · simp [State.reset]
end

