-- ==== Sys2Proof/Proofs/Encoding.lean ====
section
/-! PROOFS. The code each Transition has on `trans[i]`, and the reserved code that none has (30_encoding.md R52). -/

open Sys2Proof

namespace Sys2Proof.Transition

@[simp] theorem code_unchanged : code .unchanged = 0b00#2 := rfl
@[simp] theorem code_pressed : code .pressed = 0b01#2 := rfl
@[simp] theorem code_released : code .released = 0b10#2 := rfl

/-- The reserved code `11` of R52 is the code of no Transition, so no port can carry it. -/
theorem code_ne_reserved (t : Transition) : t.code ≠ 0b11#2 := by
  cases t with
  | unchanged => simp
  | pressed => simp
  | released => simp

end Sys2Proof.Transition

/-- Settles O53: each Transition has the code R52 gives it, and none of the three is the reserved one. -/
theorem transitionCodes : Obligations.TransitionCodes := by
  unfold Obligations.TransitionCodes
  exact ⟨Transition.code_unchanged, Transition.code_pressed, Transition.code_released, Transition.code_ne_reserved⟩
end

