-- ==== Sys2Proof/Proofs/Debounce.lean ====
section
/-! PROOFS. One debounce step of one lane (40_debounce.md): the effect of DEB on a counter in [F, 1] (R71, R72), the
refusal of a counter outside it (R74), and the invariant that keeps such a counter unreachable (R21). -/

open Sys2Proof Sys2Proof.Machine

namespace Sys2Proof.Machine

/-! ## A counter in range -/

/-- R71: the asserted sample of a counter in range. -/
theorem laneStep_asserted {F : Int} {c : Counter} (h : CounterInRange F c) :
    laneStep F c true = some (if c.toInt < 1 then .pressed else .unchanged, 1) := by
  rw [laneStep_of_inRange h, if_pos rfl, ← assertedStep_fst, ← assertedStep_snd c]

/-- R72: the unasserted sample of a counter in range. -/
theorem laneStep_unasserted {F : Int} {c : Counter} (h1 : -127 ≤ F) (h2 : F ≤ -1) (h : CounterInRange F c) :
    ∃ d : Counter, laneStep F c false = some (if c.toInt = F + 1 then .released else .unchanged, d) ∧
      d.toInt = max (c.toInt - 1) F := by
  refine ⟨(unassertedStep F c).2, ?_, unassertedStep_snd_toInt h1 h2 h⟩
  rw [laneStep_of_inRange h, if_neg Bool.false_ne_true, ← unassertedStep_fst]

/-- A DEB goes through with its lane's step, and changes nothing but the counters and the outputs. -/
theorem debounceLane_effect {lane : Nat} {b : Bool} {s : State} {c d : Counter} {tr : Transition} (hl : s.cfg.Legal)
    (hr : s.resetDone = true) (hn : lane < s.cfg.nInputs) (hc : s.cnt[lane]? = some c)
    (hs : laneStep s.cfg.debounceFloor c b = some (tr, d)) :
    ∃ t, debounceLane lane b s = .next t ∧ t = { s with cnt := t.cnt, out := t.out } ∧ t.cnt[lane]? = some d ∧
      t.out.transAt lane = some tr := by
  refine ⟨_, debounceLane_eq hl hr hn hc hs, rfl, ?_, transAt_ofLane_self hn tr⟩
  obtain ⟨hlt, -⟩ := List.getElem?_eq_some_iff.1 hc
  exact List.getElem?_set_self hlt

/-! ## A counter out of range -/

theorem debounceLane_of_not_inRange {lane : Nat} {s : State} {c : Counter} (hl : s.cfg.Legal)
    (hr : s.resetDone = true) (hn : lane < s.cfg.nInputs) (hc : s.cnt[lane]? = some c)
    (hout : ¬ CounterInRange s.cfg.debounceFloor c) (b : Bool) :
    debounceLane lane b s = .refused .counterOutOfRange := by
  rw [debounceLane, onMachine_of_legal hl, onceReset_of_done hr, readCounter_eq_some_iff.2 ⟨hn, hc⟩]
  simp only [laneStep_of_not_inRange hout]

theorem panelStep_of_not_inRange {F : Int} {cs : List Counter} {bs : List Bool} {c : Counter}
    (hlen : bs.length = cs.length) (hc : c ∈ cs) (hout : ¬ CounterInRange F c) :
    panelStep F cs bs = .error .counterOutOfRange := by
  cases hp : panelStep F cs bs with
  | error r => rw [(panelStep_error hlen hp).1]
  | ok rs =>
    obtain ⟨lane, hlt, hget⟩ := List.getElem_of_mem hc
    obtain ⟨-, -, hlanes⟩ := panelStep_ok hp
    obtain ⟨r, hstep, -⟩ := hlanes lane c bs[lane] (List.getElem?_eq_some_iff.2 ⟨hlt, hget⟩)
      (List.getElem?_eq_getElem (hlen ▸ hlt))
    rw [laneStep_of_not_inRange hout] at hstep
    cases hstep

/-- A POLL whose panel is refused is refused for the same reason. -/
theorem execPoll_of_panelStep_error {samples : List Bool} {linear rot : Axis} {bl br : Bool} {f : Level} {s : State}
    {r : Refusal} (hl : s.cfg.Legal) (hr : s.resetDone = true) (hf : FloorInContract f)
    (hn : samples.length = s.cfg.nInputs) (hp : panelStep s.cfg.debounceFloor s.cnt samples = .error r) :
    execPoll samples linear rot bl br f s = .refused r := by
  rw [execPoll, onMachine_of_legal hl, onceReset_of_done hr, if_neg (not_not.2 hf), if_neg (not_not.2 hn), hp]

/-! ## The invariant -/

/-- Every counter a step of the panel leaves is in [F, 1] (R74). -/
theorem panelStep_inRange {F : Int} {cs : List Counter} {bs : List Bool} {rs : List (Transition × Counter)}
    (h1 : -127 ≤ F) (h2 : F ≤ -1) (h : panelStep F cs bs = .ok rs) :
    ∀ v ∈ rs.map Prod.snd, CounterInRange F v := by
  intro v hv
  obtain ⟨⟨tr, d⟩, hr, rfl⟩ := List.mem_map.1 hv
  obtain ⟨lane, hlt, hget⟩ := List.getElem_of_mem hr
  obtain ⟨hcs, hbs, hlanes⟩ := panelStep_ok h
  obtain ⟨r, hstep, hr⟩ := hlanes lane cs[lane] bs[lane] (List.getElem?_eq_getElem (by omega))
    (List.getElem?_eq_getElem (by omega))
  obtain rfl : r = (tr, d) := by simpa [List.getElem?_eq_getElem hlt, hget] using hr.symm
  exact laneStep_inRange h1 h2 hstep

namespace State.Inv

/-- The invariant reads the configuration, the counters and `reset_done`, and nothing else. -/
theorem congr {s t : State} (h : s.Inv) (hcfg : t.cfg = s.cfg) (hcnt : t.cnt = s.cnt)
    (hdone : t.resetDone = s.resetDone) : t.Inv := by
  obtain ⟨hlegal, hlanes, hrange⟩ := h
  exact ⟨hcfg ▸ hlegal, by rw [hcnt, hlanes, hcfg], by rwa [hcfg, hcnt, hdone]⟩

theorem withPending {s : State} (h : s.Inv) (ps : List Presented) : (s.withPending ps).Inv := h.congr rfl rfl rfl

theorem drive {s : State} (h : s.Inv) (o : Outputs) : (s.drive o).Inv := h.congr rfl rfl rfl

theorem powerUp {c : Config} (h : c.Legal) : (State.powerUp c).Inv := ⟨h, by simp, by simp⟩

theorem clearCounters {s : State} (h : s.cfg.Legal) : s.clearCounters.Inv where
  legal := h
  lanes := by simp
  range _ v hv := by
    obtain rfl : v = 0 := List.eq_of_mem_replicate hv
    exact counterInRange_zero h.1

theorem writeCounter {s : State} (h : s.Inv) (lane : Nat) {v : Counter} (hv : CounterInRange s.cfg.debounceFloor v) :
    (s.writeCounter lane v).Inv where
  legal := h.legal
  lanes := by simpa using h.lanes
  range hdone w hw := by
    rcases List.mem_or_eq_of_mem_set hw with hold | rfl
    · exact h.range hdone w hold
    · exact hv

theorem writePanel {s : State} (h : s.Inv) {cs : List Counter} (hlen : cs.length = s.cnt.length)
    (hcs : ∀ v ∈ cs, CounterInRange s.cfg.debounceFloor v) : (s.writePanel cs).Inv where
  legal := h.legal
  lanes := hlen.trans h.lanes
  range _ := hcs

theorem debounceLane {lane : Nat} {b : Bool} {s t : State} (h : s.Inv)
    (ht : Machine.debounceLane lane b s = .next t) : t.Inv := by
  obtain ⟨⟨⟨-, hlow, hneg⟩, -⟩, -, -, _, _, _, -, hstep, rfl⟩ := debounceLane_next ht
  exact (h.writeCounter lane (laneStep_inRange hlow hneg hstep)).drive _

theorem execPoll {samples : List Bool} {linear rot : Axis} {bl br : Bool} {f : Level} {s t : State} (h : s.Inv)
    (ht : Machine.execPoll samples linear rot bl br f s = .next t) : t.Inv := by
  obtain ⟨⟨⟨-, hlow, hneg⟩, -⟩, -, -, -, lanes, hpanel, rfl⟩ := execPoll_next ht
  obtain ⟨hlen, -, -⟩ := panelStep_ok hpanel
  exact (h.writePanel (by simpa using hlen) (panelStep_inRange hlow hneg hpanel)).drive _

theorem exec {i : Instr} {s t : State} (h : s.Inv) (ht : Machine.exec i s = .next t) : t.Inv := by
  cases i with
  | debS1 lane => exact h.debounceLane (b := true) ht
  | debS0 lane => exact h.debounceLane (b := false) ht
  | mix linear rot =>
    obtain ⟨-, rfl⟩ := execMix_next ht
    exact h.drive _
  | duty cmd brake pwmFloor =>
    obtain ⟨-, _, -, rfl⟩ := execDuty_next ht
    exact h.drive _
  | poll samples linear rot brakeL brakeR pwmFloor => exact h.execPoll ht
  | reset =>
    obtain ⟨hlegal, rfl⟩ := execReset_next ht
    exact (clearCounters hlegal).drive _

theorem clockEdge {p : Ports} {s t : State} (h : s.Inv) (ht : Machine.clockEdge p s = .next t) : t.Inv := by
  rcases clockEdge_next ht with ⟨-, hlegal, rfl⟩ | ⟨-, -, hpoll⟩ | ⟨-, -, -, rfl⟩
  · exact (clearCounters hlegal).drive _
  · exact h.execPoll hpoll
  · exact h.drive _

theorem step {s t : State} (h : s.Inv) (ht : Machine.step s = .next t) : t.Inv := by
  rcases step_next ht with ⟨-, -, rfl⟩ | ⟨_, rest, -, hedge⟩ | ⟨_, _, rest, _, -, -, hexec⟩
  · exact h.drive _
  · exact (h.withPending rest).clockEdge hedge
  · exact (h.withPending rest).exec hexec

theorem advance {s : State} (h : s.Inv) : (Machine.advance s).Inv :=
  advance_cases (P := State.Inv) (fun _ => h.step) (fun _ => h.congr rfl rfl rfl) (fun _ => h.congr rfl rfl rfl)

end State.Inv

/-- The invariant holds at power-up, and what is presented and every step keep it. -/
theorem Reachable.inv {c : Config} {s : State} (hc : c.Legal) (h : Reachable c s) : s.Inv := by
  induction h with
  | powerUp => exact .powerUp hc
  | present _ ps _ ih => exact ih.withPending ps
  | advance _ _ ih => exact ih.advance

end Sys2Proof.Machine

/-- Settles O9: a DEB goes through with its lane's step, and the asserted step is Pressed just below 1. -/
theorem debS1Effect : Obligations.DebS1Effect := by
  unfold Obligations.DebS1Effect
  intro s lane c hlegal hdone hn hc hrange
  obtain ⟨t, hexec, hframe, hcnt, htr⟩ := debounceLane_effect hlegal hdone hn hc (laneStep_asserted hrange)
  refine ⟨rfl, t, _, hexec, hframe, hcnt, htr, fun hlt => ?_, fun heq => ?_⟩
  · simp [hlt]
  · simp [heq]

/-- Settles O10: a DEB goes through with its lane's step; the unasserted step is Released just at F + 1, and its
counter is the larger of c - 1 and F. -/
theorem debS0Effect : Obligations.DebS0Effect := by
  unfold Obligations.DebS0Effect
  intro s lane c hlegal hdone hn hc hrange
  have ⟨⟨_, hlow, hneg⟩, _⟩ := hlegal
  obtain ⟨d, hstep, hd⟩ := laneStep_unasserted hlow hneg hrange
  obtain ⟨t, hexec, hframe, hcnt, htr⟩ := debounceLane_effect hlegal hdone hn hc hstep
  refine ⟨rfl, t, _, d, hexec, hframe, hcnt, htr, fun habove => ?_, fun _ hreach => ?_, fun _ hkeep => ?_,
    fun hfloor => ?_⟩
  · omega
  · have : c.toInt = s.cfg.debounceFloor + 1 := by omega
    simp [this]
  · have : c.toInt ≠ s.cfg.debounceFloor + 1 := by omega
    simp [this]
  · simp [hfloor, hd]

/-- Settles O12: a lane's step finds no result for a counter out of range, so DEB is refused and so is POLL's panel;
and every reachable state meets the invariant. -/
theorem counterOutOfRangeRefused : Obligations.CounterOutOfRangeRefused := by
  unfold Obligations.CounterOutOfRangeRefused
  refine ⟨fun s lane c hlegal hdone hn hc hout => ?_, fun c s hlegal hreach => (hreach.inv hlegal).range⟩
  have hdeb := debounceLane_of_not_inRange hlegal hdone hn hc hout
  refine ⟨hdeb true, hdeb false, fun samples linear rot bl br f hcnt hsamples hf => ?_⟩
  exact execPoll_of_panelStep_error hlegal hdone hf hsamples
    (panelStep_of_not_inRange (hsamples.trans hcnt.symm) (List.mem_of_getElem? hc) hout)
end

