-- ==== Sys2Proof/Proofs/Mixer.lean ====
section
/-! PROOFS. The mixer (41_mixer.md): MIX completes on every legal block and only drives its two commands (R90, R101),
which are those of the rule's pseudocode and never -128 (R97). -/

open Sys2Proof Sys2Proof.Machine

namespace Sys2Proof.Machine

/-- When MIX goes through, and what it leaves (R90). -/
theorem exec_mix_of_legal {s : State} (h : s.cfg.Legal) (linear rot : Axis) :
    exec (.mix linear rot) s = .next (s.drive (Outputs.ofMix (mix linear rot))) :=
  onMachine_of_legal h _

/-- The one command out of contract has the bit pattern 0x80. -/
theorem CmdInContract.ne_0x80 {cmd : MotorCommand} (h : CmdInContract cmd) : cmd ≠ 0x80#8 := by
  rintro rfl
  exact h (by decide)

end Sys2Proof.Machine

/-- Settles O22: MIX completes by driving the mixer's pair. The rule's `lin`, `ro` and `adj` are by definition the
model's clamp and saturation shift, so the two values are those of `mix`, and neither is -128. -/
theorem mixEffect : Obligations.MixEffect := by
  unfold Obligations.MixEffect
  intro s linear rot hlegal
  obtain ⟨hleft, hright⟩ := mix_cmdInContract linear rot
  refine ⟨rfl, _, _, _, exec_mix_of_legal hlegal linear rot, rfl, rfl, rfl, ?_⟩
  rintro _ _ _ _ _ rfl rfl rfl rfl rfl
  exact ⟨mix_left_toInt linear rot, mix_right_toInt linear rot, hleft.ne_0x80, hright.ne_0x80⟩

/-- Settles O27: on a legal block MIX drives a pair that `linear` and `rot` alone determine, and nothing else. -/
theorem mixIsPure : Obligations.MixIsPure := by
  unfold Obligations.MixIsPure
  intro linear rot s s' hs hs'
  exact ⟨_, _, exec_mix_of_legal hs linear rot, exec_mix_of_legal hs' linear rot, rfl, rfl, rfl⟩
end

