-- ==== Sys2Proof/Proofs/OutputMapper.lean ====
section
/-! PROOFS. The output mapper (42_output_mapper.md): the contract checks of a mapper (R111), the four cases of its duty
pair (R114 to R117), and DUTY, which drives that pair and writes nothing else (R110, R121). -/

open Sys2Proof Sys2Proof.Machine

namespace Sys2Proof.Machine

/-! ## The contract of a mapper -/

theorem cmdInContract_of_ne_0x80 {cmd : MotorCommand} (h : cmd ≠ 0x80#8) : CmdInContract cmd :=
  fun hcmd => h (BitVec.eq_of_toInt_eq (hcmd.trans (by decide)))

theorem toDuty_of_not_cmdInContract {cmd : MotorCommand} (h : ¬ CmdInContract cmd) (brake : Bool) (f : Level) :
    toDuty cmd brake f = .error .cmdOutOfRange :=
  if_pos h

theorem toDuty_of_not_floorInContract {cmd : MotorCommand} {f : Level} (hc : CmdInContract cmd)
    (hf : ¬ FloorInContract f) (brake : Bool) : toDuty cmd brake f = .error .pwmFloorOutOfRange := by
  rw [toDuty, if_neg (not_not.2 hc), if_pos hf]

/-- The reasons a POLL is refused for, whatever its samples: the mixer's commands being in contract, a mapper is none. -/
theorem execPoll_refused_reason {samples : List Bool} {linear rot : Axis} {bl br : Bool} {f : Level} {s : State}
    {r : Refusal} (h : execPoll samples linear rot bl br f s = .refused r) :
    configRefusal s.cfg = some r ∨ r = .pwmFloorOutOfRange ∨ r = .laneMismatch ∨ r = .counterOutOfRange := by
  rcases onMachine_refused h with hcfg | ⟨hlegal, hguarded⟩
  · exact .inl hcfg
  · obtain ⟨hdone, hbody⟩ := onceReset_refused hguarded
    by_cases hf : FloorInContract f
    · by_cases hn : samples.length = s.cfg.nInputs
      · cases hp : panelStep s.cfg.debounceFloor s.cnt samples with
        | ok lanes =>
          rw [execPoll_eq hlegal hdone hf hn hp] at h
          cases h
        | error e =>
          rw [execPoll_of_panelStep_error hlegal hdone hf hn hp] at h
          cases h
          exact .inr (.inr (panelStep_error_cases hp).symm)
      · rw [if_neg (not_not.2 hf), if_pos hn] at hbody
        cases hbody
        exact .inr (.inr (.inl rfl))
    · rw [if_pos hf] at hbody
      cases hbody
      exact .inr (.inl rfl)

theorem execPoll_ne_cmdOutOfRange (samples : List Bool) (linear rot : Axis) (bl br : Bool) (f : Level) (s : State) :
    execPoll samples linear rot bl br f s ≠ .refused .cmdOutOfRange := by
  intro h
  rcases execPoll_refused_reason h with hcfg | hr | hr | hr
  · rcases configRefusal_eq_some hcfg with ⟨hr, -⟩ | ⟨hr, -⟩ <;> cases hr
  · cases hr
  · cases hr
  · cases hr

/-! ## The channel values of the four cases -/

section
variable {cmd : MotorCommand} {f : Level}

/-- R116: reverse. -/
theorem dutyPair_toNat_of_neg (hc : CmdInContract cmd) (hf : FloorInContract f) (brake : Bool) (h : cmd.toInt < 0) :
    ((dutyPair cmd brake f).chanA.toNat : Int) = f.toNat + -cmd.toInt ∧ (dutyPair cmd brake f).chanB.toNat = 0 := by
  rw [dutyPair_of_neg brake f h]
  refine ⟨?_, rfl⟩
  rw [channelLevel_toNat hf (magnitude_le hc), Nat.cast_add, magnitude, Int.ofNat_natAbs_of_nonpos h.le]

/-- R117: forward. -/
theorem dutyPair_toNat_of_pos (hc : CmdInContract cmd) (hf : FloorInContract f) (brake : Bool) (h : 0 < cmd.toInt) :
    (dutyPair cmd brake f).chanA.toNat = 0 ∧ ((dutyPair cmd brake f).chanB.toNat : Int) = f.toNat + cmd.toInt := by
  rw [dutyPair_of_pos brake f h]
  refine ⟨rfl, ?_⟩
  rw [channelLevel_toNat hf (magnitude_le hc), Nat.cast_add, magnitude, Int.natAbs_of_nonneg h.le]

/-- R114: coast. -/
theorem dutyPair_toNat_of_coast (f : Level) (h : cmd.toInt = 0) :
    (dutyPair cmd false f).chanA.toNat = 0 ∧ (dutyPair cmd false f).chanB.toNat = 0 := by
  rw [dutyPair_of_zero false f h]
  exact ⟨rfl, rfl⟩

/-- R115: brake. -/
theorem dutyPair_toNat_of_brake (hf : FloorInContract f) (h : cmd.toInt = 0) :
    (dutyPair cmd true f).chanA.toNat = f.toNat + 127 ∧ (dutyPair cmd true f).chanB.toNat = f.toNat + 127 := by
  rw [dutyPair_of_zero true f h, if_pos rfl]
  exact ⟨channelLevel_toNat hf le_rfl, channelLevel_toNat hf le_rfl⟩

end

/-! ## DUTY is a mapper alone -/

/-- When DUTY goes through, and what it leaves (R110). -/
theorem exec_duty_of_toDuty_ok {s : State} {cmd : MotorCommand} {brake : Bool} {f : Level} {d : DutyPair}
    (hs : s.cfg.Legal) (hd : toDuty cmd brake f = .ok d) :
    exec (.duty cmd brake f) s = .next (s.drive (Outputs.ofDuty d)) := by
  rw [exec, execDuty, onMachine_of_legal hs, hd]

theorem exec_duty_of_toDuty_error {s : State} {cmd : MotorCommand} {brake : Bool} {f : Level} {r : Refusal}
    (hs : s.cfg.Legal) (hr : toDuty cmd brake f = .error r) : exec (.duty cmd brake f) s = .refused r := by
  rw [exec, execDuty, onMachine_of_legal hs, hr]

end Sys2Proof.Machine

/-- Settles O28: on a legal block DUTY answers what the mapper answers, and the mapper's pair has the channel values of
its command's case. -/
theorem dutyEffect : Obligations.DutyEffect := by
  unfold Obligations.DutyEffect
  intro s cmd brake f hlegal
  refine ⟨fun hcmd => ?_, fun hcmd hfloor => ?_, fun hcmd hfloor => ?_⟩
  · exact exec_duty_of_toDuty_error hlegal (toDuty_of_not_cmdInContract (not_not.2 hcmd) brake f)
  · exact exec_duty_of_toDuty_error hlegal (toDuty_of_not_floorInContract hcmd (Nat.not_le.2 hfloor) brake)
  · have hexec := exec_duty_of_toDuty_ok hlegal (toDuty_of_inContract hcmd hfloor brake)
    refine ⟨rfl, _, dutyPair cmd brake f, hexec, rfl, rfl, ?_, ?_, dutyPair_toNat_of_neg hcmd hfloor brake,
      dutyPair_toNat_of_pos hcmd hfloor brake⟩
    · rintro hzero rfl
      exact dutyPair_toNat_of_coast f hzero
    · rintro hzero rfl
      exact dutyPair_toNat_of_brake hfloor hzero

/-- Settles O29: the two checks of a mapper, the command first; in POLL both commands come from the mixer, which never
gives -128. -/
theorem mapperContract : Obligations.MapperContract := by
  unfold Obligations.MapperContract
  refine ⟨fun brake f => ?_, fun cmd brake f hcmd hfloor => ?_, fun cmd brake f hcmd hfloor => ?_,
    execPoll_ne_cmdOutOfRange⟩
  · exact toDuty_of_not_cmdInContract (by decide) brake f
  · exact toDuty_of_not_floorInContract (cmdInContract_of_ne_0x80 hcmd) (Nat.not_le.2 hfloor) brake
  · exact ⟨_, toDuty_of_inContract (cmdInContract_of_ne_0x80 hcmd) hfloor brake⟩

/-- Settles O31: a DUTY that completes drives the mapper's pair, which the operands alone determine, so it drives the
same pair in every legal block. -/
theorem dutyIsPure : Obligations.DutyIsPure := by
  unfold Obligations.DutyIsPure
  intro cmd brake f s s' t hs' h
  obtain ⟨-, d, hd, rfl⟩ := execDuty_next h
  exact ⟨rfl, _, exec_duty_of_toDuty_ok hs' hd, rfl, rfl⟩
end

