-- ==== Sys2Proof/Proofs/CoreStep.lean ====
section
/-! PROOFS. The whole block's step (43_core_step.md): POLL and its operand word (R130, R131), the two paths that share no
signal (R132), RESET (R133), and the clock edge at which the reset wins (R135). -/

open Sys2Proof Sys2Proof.Machine

namespace Sys2Proof

/-! ## The operand word of POLL -/

/-- A POLL word without its samples: the fields that stand above `s` in R57's table. -/
def motionWord (linear rot : Axis) (brakeL brakeR : Bool) (pwmFloor : Level) : Nat :=
  linear.toNat + rot.toNat * 2 ^ 16 + brakeL.toNat * 2 ^ 32 + brakeR.toNat * 2 ^ 33 + pwmFloor.toNat * 2 ^ 34

section
variable (samples : List Bool) (linear rot : Axis) (bl br : Bool) (f : Level)

theorem encode_poll : encode (.poll samples linear rot bl br f) =
    (.poll, packBits samples + 2 ^ samples.length * motionWord linear rot bl br f) := by
  simp only [encode, motionWord, Prod.mk.injEq, true_and, pow_add]
  ring

/-- The fields above the samples, read from the word without them. -/
theorem decodePoll_eq (n w : Nat) : decodePoll n w =
    .poll (sampleBits n w) (BitVec.ofNat 16 (bitField (w / 2 ^ n) 0 16)) (BitVec.ofNat 16 (bitField (w / 2 ^ n) 16 16))
      (bitAt (w / 2 ^ n) 32) (bitAt (w / 2 ^ n) 33) (BitVec.ofNat 32 (bitField (w / 2 ^ n) 34 32)) := by
  simp only [decodePoll, ← bitField_add, ← bitAt_add, Nat.add_zero]

/-- Each field of the word is the operand it was made of, since those below it fit in their bits. -/
theorem motionWord_fields :
    bitField (motionWord linear rot bl br f) 0 16 = linear.toNat ∧
    bitField (motionWord linear rot bl br f) 16 16 = rot.toNat ∧
    bitAt (motionWord linear rot bl br f) 32 = bl ∧ bitAt (motionWord linear rot bl br f) 33 = br ∧
    bitField (motionWord linear rot bl br f) 34 32 = f.toNat := by
  have hlinear := linear.isLt
  have hrot := rot.isLt
  have hbl := Bool.toNat_le bl
  have hbr := Bool.toNat_le br
  have hf := f.isLt
  unfold motionWord bitField
  refine ⟨?_, ?_, bitAt_eq_of_toNat ?_, bitAt_eq_of_toNat ?_, ?_⟩
  · omega
  · omega
  · omega
  · omega
  · omega

/-- The word of a POLL decodes to it in a block with a lane for every sample (R57). -/
theorem decode_encode_poll :
    decode samples.length (encode (.poll samples linear rot bl br f)).1 (encode (.poll samples linear rot bl br f)).2 =
      .ok (.poll samples linear rot bl br f) := by
  have hfits := Laws.EncodeFits.poll samples linear rot bl br f samples.length (by simp [Instr.wellFormed])
  rw [encode_poll] at hfits ⊢
  have hmotion : (packBits samples + 2 ^ samples.length * motionWord linear rot bl br f) / 2 ^ samples.length =
      motionWord linear rot bl br f := by
    rw [Nat.add_mul_div_left _ _ (Nat.two_pow_pos _), Nat.div_eq_of_lt (packBits_lt samples), Nat.zero_add]
  obtain ⟨hlinear, hrot, hbl, hbr, hf⟩ := motionWord_fields linear rot bl br f
  rw [decode_poll hfits, decodePoll_eq, hmotion, sampleBits_packBits, hlinear, hrot, hbl, hbr, hf]
  simp only [BitVec.ofNat_toNat, BitVec.setWidth_eq]

end

end Sys2Proof

namespace Sys2Proof.Machine

/-! ## POLL -/

section
variable {samples : List Bool} {linear rot : Axis} {bl br : Bool} {f : Level} {s : State}

theorem execPoll_of_not_reset (hl : s.cfg.Legal) (hr : s.resetDone = false) :
    execPoll samples linear rot bl br f s = .fault .notReset := by
  rw [execPoll, onMachine_of_legal hl, onceReset_of_not_done hr]

theorem execPoll_of_not_floorInContract (hl : s.cfg.Legal) (hr : s.resetDone = true) (hf : ¬ FloorInContract f) :
    execPoll samples linear rot bl br f s = .refused .pwmFloorOutOfRange := by
  rw [execPoll, onMachine_of_legal hl, onceReset_of_done hr, if_pos hf]

/-- A POLL with everything in contract goes through, with one result for every lane. -/
theorem execPoll_of_inv (h : s.Inv) (hr : s.resetDone = true) (hf : FloorInContract f)
    (hn : samples.length = s.cfg.nInputs) :
    ∃ lanes, panelStep s.cfg.debounceFloor s.cnt samples = .ok lanes ∧
      execPoll samples linear rot bl br f s =
        .next ((s.writePanel (lanes.map Prod.snd)).drive (Outputs.ofPoll (lanes.map Prod.fst) (mix linear rot)
          (dutyPair (mix linear rot).left bl f) (dutyPair (mix linear rot).right br f))) := by
  obtain ⟨lanes, hpanel⟩ := panelStep_isOk (hn.trans h.lanes.symm) (h.range hr)
  exact ⟨lanes, hpanel, execPoll_eq h.legal hr hf hn hpanel⟩

end

/-- The lanes' part of a POLL's outputs, whatever the motion path drives. -/
@[simp] theorem ofPoll_trans (ts : List Transition) (m : MotorPair) (dl dr : DutyPair) :
    (Outputs.ofPoll ts m dl dr).trans = ts.map some := rfl

/-! ## RESET -/

/-- No operation but RESET writes `reset_done` (R133). -/
theorem exec_resetDone_of_ne_reset {i : Instr} {s t : State} (h : exec i s = .next t) (hi : i ≠ .reset) :
    t.resetDone = s.resetDone := by
  cases i with
  | debS1 lane =>
    obtain ⟨-, -, -, _, _, _, -, -, rfl⟩ := debounceLane_next (b := true) h
    simp
  | debS0 lane =>
    obtain ⟨-, -, -, _, _, _, -, -, rfl⟩ := debounceLane_next (b := false) h
    simp
  | mix linear rot =>
    obtain ⟨-, rfl⟩ := execMix_next h
    simp
  | duty cmd brake pwmFloor =>
    obtain ⟨-, _, -, rfl⟩ := execDuty_next h
    simp
  | poll samples linear rot brakeL brakeR pwmFloor =>
    obtain ⟨-, -, -, -, _, -, rfl⟩ := execPoll_next h
    simp
  | reset => exact absurd rfl hi

theorem execAll_cons_of_next {i : Instr} {is : List Instr} {s t : State} (h : exec i s = .next t) :
    execAll (i :: is) s = execAll is t := by
  rw [execAll, h]

/-! ## A clock edge with the reset -/

theorem clockEdge_of_rst {p : Ports} {s : State} (hl : s.cfg.Legal) (hp : p.rst = true) :
    clockEdge p s = .next (s.clearCounters.drive (restingOutputs s.cfg.nInputs p)) := by
  rw [clockEdge, if_pos hp, resetEdge, onMachine_of_legal hl]

/-- At an edge without a step every lane of the block reads 00 (R134). -/
theorem transAt_restingOutputs (n : Nat) (p : Ports) (lane : Nat) :
    (restingOutputs n p).transAt lane = if lane < n then some .unchanged else none := by
  simp only [restingOutputs, Outputs.transAt, List.getElem?_replicate]
  split <;> rfl

theorem step_edge {s : State} {p : Ports} {rest : List Presented} (h : s.pending = .edge p :: rest) :
    step s = clockEdge p (s.withPending rest) := by
  rw [step, h]

end Sys2Proof.Machine

/-- Settles O32: the two guards of POLL in their order; past them the panel answers one result for every lane, which is
the lane's own step, and the mixer's commands are in contract for both mappers. -/
theorem pollEffect : Obligations.PollEffect := by
  unfold Obligations.PollEffect
  intro s samples linear rot bl br f hinv hn
  refine ⟨execPoll_of_not_reset hinv.legal, fun hr hf => ?_, fun hr hf => ⟨?_, ?_⟩⟩
  · exact execPoll_of_not_floorInContract hinv.legal hr (Nat.not_le.2 hf)
  · rw [← hn]
    exact decode_encode_poll samples linear rot bl br f
  · obtain ⟨lanes, hpanel, hexec⟩ := execPoll_of_inv hinv hr hf hn
    obtain ⟨hlen, -, hlane⟩ := panelStep_ok hpanel
    obtain ⟨hleft, hright⟩ := mix_cmdInContract linear rot
    refine ⟨_, _, _, hexec, rfl, ?_, fun lane c b hc hb => ?_, rfl, rfl, toDuty_of_inContract hleft hf bl, rfl,
      toDuty_of_inContract hright hf br, rfl⟩
    · simpa using hlen.trans hinv.lanes
    · obtain ⟨⟨tr, d⟩, hstep, hres⟩ := hlane lane c b hc hb
      exact ⟨tr, d, hstep, by simp [hres], by simp [transAt_ofPoll, hres]⟩

/-- Settles O35: what a POLL writes to the counters and Transitions is the panel's answer, which reads only the state and
the samples; what it drives on the motion ports is a function of the axes, the brakes and `pwm_floor`. -/
theorem lanesAndMotionAreIndependent : Obligations.LanesAndMotionAreIndependent := by
  unfold Obligations.LanesAndMotionAreIndependent
  constructor
  · intro s t t' samples linear rot linear' rot' bl br bl' br' f f' h h'
    obtain ⟨-, -, -, -, lanes, hpanel, rfl⟩ := execPoll_next h
    obtain ⟨-, -, -, -, lanes', hpanel', rfl⟩ := execPoll_next h'
    obtain rfl : lanes = lanes' := Except.ok.inj (hpanel.symm.trans hpanel')
    simp
  · intro s s' t t' samples samples' linear rot bl br f h h'
    obtain ⟨-, -, -, -, _, -, rfl⟩ := execPoll_next h
    obtain ⟨-, -, -, -, _, -, rfl⟩ := execPoll_next h'
    exact ⟨rfl, rfl, rfl, rfl⟩

/-- Settles O38: RESET only clears the counters and sets `reset_done`, which no other operation writes; a cleared lane
holds 0, below 1, so its next asserted sample is Pressed. -/
theorem resetEffect : Obligations.ResetEffect := by
  unfold Obligations.ResetEffect
  refine ⟨fun s hlegal => ⟨execReset_of_legal hlegal, rfl⟩, fun i s t h hbefore hafter => ?_,
    fun s lane hlegal hlane => ?_⟩
  · by_contra hi
    rw [exec_resetDone_of_ne_reset h hi, hbefore] at hafter
    cases hafter
  · have hreset : exec .reset s = .next (s.clearCounters.drive Outputs.undriven) := execReset_of_legal hlegal
    obtain ⟨t, hdeb, -, hcnt, htr⟩ := debounceLane_effect (s := s.clearCounters.drive Outputs.undriven) hlegal rfl hlane
      (clearCounters_cnt_getElem? hlane) (laneStep_asserted (counterInRange_zero hlegal.1))
    have hdeb' : exec (.debS1 lane) (s.clearCounters.drive Outputs.undriven) = .next t := hdeb
    refine ⟨t, ?_, ?_, hcnt⟩
    · rw [execAll_cons_of_next hreset, execAll_cons_of_next hdeb', execAll]
    · simpa using htr

/-- Settles O6: the edge clears the counters without reading `poll_en` or the samples, and drives Unchanged on every
lane. -/
theorem resetWinsOverPoll : Obligations.ResetWinsOverPoll := by
  unfold Obligations.ResetWinsOverPoll
  intro s p rest hlegal hpending hrst
  have hstep := (step_edge hpending).trans (clockEdge_of_rst (s := s.withPending rest) hlegal hrst)
  refine ⟨_, hstep, rfl, fun lane => ?_⟩
  rw [State.drive_out, transAt_restingOutputs]
  split
  · exact ⟨nofun, nofun⟩
  · exact ⟨nofun, nofun⟩
end

