-- ==== Sys2Proof/Proofs/Exceptions.lean ====
section
/-! PROOFS. Refusals, faults and their order (60_exceptions.md): the closed list of refusal reasons (R141), the mark that
every later state keeps (R141), and which of several outcomes is reported (R143, R93). -/

open Sys2Proof Sys2Proof.Machine

namespace Sys2Proof.Machine

/-! ## The configuration comes first -/

theorem onMachine_of_configRefusal {s : State} {r : Refusal} (h : configRefusal s.cfg = some r) (k : Result) :
    onMachine s k = .refused r := by
  simp [onMachine, h]

/-- A block with a refused configuration has no operation (R141). -/
theorem exec_of_configRefusal {s : State} {r : Refusal} (h : configRefusal s.cfg = some r) (i : Instr) :
    exec i s = .refused r := by
  cases i with
  | debS1 lane => exact onMachine_of_configRefusal h _
  | debS0 lane => exact onMachine_of_configRefusal h _
  | mix linear rot => exact onMachine_of_configRefusal h _
  | duty cmd brake pwmFloor => exact onMachine_of_configRefusal h _
  | poll samples linear rot brakeL brakeR pwmFloor => exact onMachine_of_configRefusal h _
  | reset => exact onMachine_of_configRefusal h _

/-! ## `NotReset` comes next -/

theorem debounceLane_of_not_reset {lane : Nat} {b : Bool} {s : State} (hl : s.cfg.Legal) (hr : s.resetDone = false) :
    debounceLane lane b s = .fault .notReset := by
  rw [debounceLane, onMachine_of_legal hl, onceReset_of_not_done hr]

theorem exec_of_not_reset {i : Instr} {s : State} (hl : s.cfg.Legal) (hr : s.resetDone = false)
    (hi : i.stepsLanes = true) : exec i s = .fault .notReset := by
  cases i with
  | debS1 lane => exact debounceLane_of_not_reset hl hr
  | debS0 lane => exact debounceLane_of_not_reset hl hr
  | mix linear rot => cases hi
  | duty cmd brake pwmFloor => cases hi
  | poll samples linear rot brakeL brakeR pwmFloor => exact execPoll_of_not_reset hl hr
  | reset => cases hi

/-! ## Why an operation is refused -/

/-- Why a DEB can be refused. -/
theorem debounceLane_refused {lane : Nat} {b : Bool} {s : State} {r : Refusal}
    (h : debounceLane lane b s = .refused r) :
    configRefusal s.cfg = some r ∨ (r = .noSuchLane ∧ s.readCounter lane = none) ∨
      (r = .counterOutOfRange ∧ ∃ c ∈ s.cnt, ¬ CounterInRange s.cfg.debounceFloor c) := by
  rcases onMachine_refused h with hcfg | ⟨hl, hguarded⟩
  · exact .inl hcfg
  · obtain ⟨hr, hbody⟩ := onceReset_refused hguarded
    cases hread : s.readCounter lane with
    | none =>
      rw [hread] at hbody
      cases hbody
      exact .inr (.inl ⟨rfl, rfl⟩)
    | some c =>
      obtain ⟨hn, hc⟩ := readCounter_eq_some_iff.1 hread
      by_cases hrange : CounterInRange s.cfg.debounceFloor c
      · rw [debounceLane_eq hl hr hn hc (laneStep_of_inRange hrange b)] at h
        cases h
      · rw [debounceLane_of_not_inRange hl hr hn hc hrange] at h
        cases h
        exact .inr (.inr ⟨rfl, c, List.mem_of_getElem? hc, hrange⟩)

theorem readCounter_ne_none {s : State} {lane : Nat} (hlen : s.cnt.length = s.cfg.nInputs)
    (hn : lane < s.cfg.nInputs) : s.readCounter lane ≠ none := by
  rw [State.readCounter, if_pos hn, List.getElem?_eq_getElem (hlen ▸ hn)]
  exact Option.some_ne_none _

/-- Why a DEB on one of the block's lanes can be refused. -/
theorem debounceLane_refused_of_lane {lane : Nat} {b : Bool} {s : State} {r : Refusal}
    (hlen : s.cnt.length = s.cfg.nInputs) (hn : lane < s.cfg.nInputs) (h : debounceLane lane b s = .refused r) :
    configRefusal s.cfg = some r ∨
      (r = .counterOutOfRange ∧ ∃ c ∈ s.cnt, ¬ CounterInRange s.cfg.debounceFloor c) := by
  rcases debounceLane_refused h with hcfg | ⟨-, hnone⟩ | hcounter
  · exact .inl hcfg
  · exact absurd hnone (readCounter_ne_none hlen hn)
  · exact .inr hcounter

/-- Why a DUTY can be refused, the command before `pwm_floor` (R143). -/
theorem execDuty_refused {cmd : MotorCommand} {brake : Bool} {f : Level} {s : State} {r : Refusal}
    (h : execDuty cmd brake f s = .refused r) :
    configRefusal s.cfg = some r ∨ (r = .cmdOutOfRange ∧ ¬ CmdInContract cmd) ∨
      (r = .pwmFloorOutOfRange ∧ ¬ FloorInContract f) := by
  rcases onMachine_refused h with hcfg | ⟨-, hbody⟩
  · exact .inl hcfg
  · cases hd : toDuty cmd brake f with
    | ok d =>
      rw [hd] at hbody
      cases hbody
    | error e =>
      rw [hd] at hbody
      cases hbody
      rcases toDuty_eq_error hd with hcmd | ⟨hr, -, hf⟩
      · exact .inr (.inl hcmd)
      · exact .inr (.inr ⟨hr, hf⟩)

/-- Why a well-formed operation of a block with one counter a lane can be refused (R141). -/
theorem exec_refused {i : Instr} {s : State} {r : Refusal} (hlen : s.cnt.length = s.cfg.nInputs)
    (hi : i.wellFormed s.cfg.nInputs = true) (h : exec i s = .refused r) :
    configRefusal s.cfg = some r ∨
      (r = .counterOutOfRange ∧ i.stepsLanes = true ∧ ∃ c ∈ s.cnt, ¬ CounterInRange s.cfg.debounceFloor c) ∨
      (r = .cmdOutOfRange ∧ ∃ b f, i = .duty (-128) b f) ∨
      (r = .pwmFloorOutOfRange ∧ i.inContract = false) := by
  cases i with
  | debS1 lane =>
    rcases debounceLane_refused_of_lane (b := true) hlen (of_decide_eq_true hi) h with hcfg | ⟨hr, hcounter⟩
    · exact .inl hcfg
    · exact .inr (.inl ⟨hr, rfl, hcounter⟩)
  | debS0 lane =>
    rcases debounceLane_refused_of_lane (b := false) hlen (of_decide_eq_true hi) h with hcfg | ⟨hr, hcounter⟩
    · exact .inl hcfg
    · exact .inr (.inl ⟨hr, rfl, hcounter⟩)
  | mix linear rot =>
    rcases onMachine_refused h with hcfg | ⟨-, hbody⟩
    · exact .inl hcfg
    · cases hbody
  | duty cmd brake pwmFloor =>
    rcases execDuty_refused h with hcfg | ⟨hr, hcmd⟩ | ⟨hr, hf⟩
    · exact .inl hcfg
    · obtain rfl : cmd = -128 := not_not.1 fun hne => hcmd (cmdInContract_of_ne_0x80 hne)
      exact .inr (.inr (.inl ⟨hr, brake, pwmFloor, rfl⟩))
    · exact .inr (.inr (.inr ⟨hr, by simp [Instr.inContract, hf]⟩))
  | poll samples linear rot brakeL brakeR pwmFloor =>
    have hn : samples.length = s.cfg.nInputs := of_decide_eq_true hi
    rcases execPoll_refused (hn.trans hlen.symm) h with hcfg | ⟨hr, hf⟩ | ⟨-, hne⟩ | ⟨hr, hcounter⟩
    · exact .inl hcfg
    · exact .inr (.inr (.inr ⟨hr, by simp [Instr.inContract, hf]⟩))
    · exact absurd hn hne
    · exact .inr (.inl ⟨hr, rfl, hcounter⟩)
  | reset =>
    rcases onMachine_refused h with hcfg | ⟨-, hbody⟩
    · exact .inl hcfg
    · cases hbody

theorem exec_duty_neg_128 {s : State} (hl : s.cfg.Legal) (brake : Bool) (f : Level) :
    exec (.duty (-128) brake f) s = .refused .cmdOutOfRange :=
  exec_duty_of_toDuty_error hl (toDuty_of_not_cmdInContract (by decide) brake f)

/-! ## What goes through says of the block, and the mark -/

/-- An operation that goes through is one of a legal block, and writes the counters, `reset_done` and the outputs at
most. -/
theorem exec_next_frame {i : Instr} {s t : State} (h : exec i s = .next t) :
    s.cfg.Legal ∧ t = { s with cnt := t.cnt, resetDone := t.resetDone, out := t.out } := by
  cases i with
  | debS1 lane =>
    obtain ⟨hl, -, -, _, _, _, -, -, rfl⟩ := debounceLane_next (b := true) h
    exact ⟨hl, rfl⟩
  | debS0 lane =>
    obtain ⟨hl, -, -, _, _, _, -, -, rfl⟩ := debounceLane_next (b := false) h
    exact ⟨hl, rfl⟩
  | mix linear rot =>
    obtain ⟨hl, rfl⟩ := execMix_next h
    exact ⟨hl, rfl⟩
  | duty cmd brake pwmFloor =>
    obtain ⟨hl, _, -, rfl⟩ := execDuty_next h
    exact ⟨hl, rfl⟩
  | poll samples linear rot brakeL brakeR pwmFloor =>
    obtain ⟨hl, -, -, -, _, -, rfl⟩ := execPoll_next h
    exact ⟨hl, rfl⟩
  | reset =>
    obtain ⟨hl, rfl⟩ := execReset_next h
    exact ⟨hl, rfl⟩

theorem clockEdge_next_frame {p : Ports} {s t : State} (h : clockEdge p s = .next t) :
    s.cfg.Legal ∧ t = { s with cnt := t.cnt, resetDone := t.resetDone, out := t.out } := by
  rcases clockEdge_next h with ⟨-, hl, rfl⟩ | ⟨-, -, hpoll⟩ | ⟨-, -, hl, rfl⟩
  · exact ⟨hl, rfl⟩
  · exact exec_next_frame (i := .poll ..) hpoll
  · exact ⟨hl, rfl⟩

/-- A step that goes through is one of a legal block, and leaves the configuration and both records. -/
theorem step_next_frame {s t : State} (h : step s = .next t) : s.cfg.Legal ∧
    t = { s with cnt := t.cnt, resetDone := t.resetDone, out := t.out, pending := t.pending } := by
  rcases step_next h with ⟨-, hl, rfl⟩ | ⟨_, rest, -, hedge⟩ | ⟨_, _, rest, _, -, -, hexec⟩
  · exact ⟨hl, rfl⟩
  · obtain ⟨hl, ht⟩ := clockEdge_next_frame hedge
    exact ⟨hl, by rw [ht]; rfl⟩
  · obtain ⟨hl, ht⟩ := exec_next_frame hexec
    exact ⟨hl, by rw [ht]; rfl⟩

theorem step_refusalMark {s t : State} (h : step s = .next t) : t.refusalMark = s.refusalMark := by
  rw [(step_next_frame h).2]

theorem recordRefusal_refusalMark_ne_none (s : State) (r : Refusal) : (s.recordRefusal r).refusalMark ≠ none := by
  simp

/-- "A refusal mark that every later state keeps" (R141). -/
theorem advance_refusalMark_ne_none {s : State} (h : s.refusalMark ≠ none) : (advance s).refusalMark ≠ none :=
  advance_cases (P := fun t => t.refusalMark ≠ none) (fun _ ht => by rwa [step_refusalMark ht]) (fun _ => h)
    (recordRefusal_refusalMark_ne_none s)

/-! ## The order of the saturation conditions (R93) -/

theorem saturationShift_of_left_over {l : Int} (h : l > 127) (r : Int) : saturationShift l r = l - 127 := if_pos h

theorem saturationShift_of_left_under {l : Int} (h : l < -127) (r : Int) : saturationShift l r = l + 127 := by
  rw [saturationShift, if_neg (by omega), if_pos h]

theorem saturationShift_of_right_over {l r : Int} (hl : CommandInRange l) (h : r > 127) :
    saturationShift l r = r - 127 := by
  obtain ⟨hlow, hhigh⟩ := hl
  rw [saturationShift, if_neg (by omega), if_neg (by omega), if_pos h]

theorem saturationShift_of_right_under {l r : Int} (hl : CommandInRange l) (h : r < -127) :
    saturationShift l r = r + 127 := by
  obtain ⟨hlow, hhigh⟩ := hl
  rw [saturationShift, if_neg (by omega), if_neg (by omega), if_neg (by omega), if_pos h]

end Sys2Proof.Machine

/-- Settles O41: the reasons an operation is refused for, the two of its configuration named; the mark is written by a
refused step alone, which never unsets it; only a legal block completes a step; and each reason's own rule raises it. -/
theorem refusalsAreTheListed : Obligations.RefusalsAreTheListed := by
  unfold Obligations.RefusalsAreTheListed
  refine ⟨fun s i r hlen hi h => ?_, fun s r h => ?_, fun s k hmark => ?_, fun s t hl h => hl (step_next_frame h).1,
    fun s i hfloor _ => exec_of_configRefusal (configRefusal_of_not_floorLegal hfloor) i,
    fun s i hfloor hn => exec_of_configRefusal (configRefusal_of_not_countLegal hfloor (by simp [hn])) i,
    fun s lane b c hl hr hn hc hout => ?_, fun s lane c samples linear rot bl br f hl hr hlen hn hf hc hout => ?_,
    fun s b f hl => exec_duty_neg_128 hl b f, fun s c b f hl hc hf => ?_,
    fun s samples linear rot bl br f hl hr hf => execPoll_of_not_floorInContract hl hr (Nat.not_le.2 hf)⟩
  · rcases exec_refused hlen hi h with hcfg | hother
    · rcases configRefusal_eq_some hcfg with hbad | ⟨hr, -, hcount⟩
      · exact .inl hbad
      · exact .inr (.inl ⟨hr, Nat.eq_zero_of_not_pos hcount⟩)
    · exact .inr (.inr hother)
  · rw [advance_of_refused h]
    exact ⟨recordRefusal_refusalMark_ne_none s r, rfl, rfl⟩
  · exact advanceN_induct (P := fun t => t.refusalMark ≠ none) (fun _ => advance_refusalMark_ne_none) k s hmark
  · rw [laneOp_exec]
    exact debounceLane_of_not_inRange hl hr hn hc hout b
  · exact execPoll_of_panelStep_error hl hr hf hn
      (panelStep_of_not_inRange (hn.trans hlen.symm) (List.mem_of_getElem? hc) hout)
  · exact exec_duty_of_toDuty_error hl
      (toDuty_of_not_floorInContract (cmdInContract_of_ne_0x80 hc) (Nat.not_le.2 hf) b)

/-- Settles O43: the configuration guard answers before any operation's own meaning, the reset guard before a lane step's,
and POLL's floor, DUTY's command and the saturation conditions are taken in the order of their rules. -/
theorem outcomePriority : Obligations.OutcomePriority := by
  unfold Obligations.OutcomePriority
  refine ⟨fun s i hl => ?_, fun s i => exec_of_not_reset,
    fun s samples linear rot bl br f => execPoll_of_not_floorInContract, fun s b f hl => exec_duty_neg_128 hl b f,
    fun l r => ⟨fun h => saturationShift_of_left_over h r, fun h => saturationShift_of_left_under h r,
      saturationShift_of_right_over, saturationShift_of_right_under⟩⟩
  obtain ⟨r, hr, -⟩ := onMachine_of_not_legal hl
  rw [exec_of_configRefusal hr i]
  rcases configRefusal_eq_some hr with ⟨rfl, -⟩ | ⟨rfl, -⟩
  · exact .inl rfl
  · exact .inr rfl
end

section
/-! PROOFS. Operand words (30_encoding.md R57 to R61): the two directions of the round trip between an operation and its
word, and which words of each format decode. -/

open Sys2Proof

namespace Sys2Proof

/-! ## From an operation to its word and back -/

theorem decode_encode_mix (n : Nat) (linear rot : Axis) :
    decode n (encode (.mix linear rot)).1 (encode (.mix linear rot)).2 = .ok (.mix linear rot) := by
  have hlinear := linear.isLt
  have hrot := rot.isLt
  have hlow : bitField (linear.toNat + rot.toNat * 2 ^ 16) 0 16 = linear.toNat := by
    unfold bitField
    omega
  have hhigh : bitField (linear.toNat + rot.toNat * 2 ^ 16) 16 16 = rot.toNat := by
    unfold bitField
    omega
  refine (decode_mix n (Laws.EncodeFits.mix linear rot n rfl)).trans ?_
  simp only [encode, decodeMix, hlow, hhigh, BitVec.ofNat_toNat, BitVec.setWidth_eq]

theorem decode_encode_duty (n : Nat) (cmd : MotorCommand) (brake : Bool) (f : Level) :
    decode n (encode (.duty cmd brake f)).1 (encode (.duty cmd brake f)).2 = .ok (.duty cmd brake f) := by
  have hcmd := cmd.isLt
  have hbrake := Bool.toNat_le brake
  have hf := f.isLt
  have hc : bitField (cmd.toNat + brake.toNat * 2 ^ 8 + f.toNat * 2 ^ 9) 0 8 = cmd.toNat := by
    unfold bitField
    omega
  have hb : bitAt (cmd.toNat + brake.toNat * 2 ^ 8 + f.toNat * 2 ^ 9) 8 = brake := bitAt_eq_of_toNat (by omega)
  have hl : bitField (cmd.toNat + brake.toNat * 2 ^ 8 + f.toNat * 2 ^ 9) 9 32 = f.toNat := by
    unfold bitField
    omega
  refine (decode_duty n (Laws.EncodeFits.duty cmd brake f n rfl)).trans ?_
  simp only [encode, decodeDuty, hc, hb, hl, BitVec.ofNat_toNat, BitVec.setWidth_eq]

/-! ## From a word to its operation and back -/

theorem decode_deb_eq_ok_iff {n lane w : Nat} {i : Instr} : decode n (.deb lane) w = .ok i ↔
    lane < n ∧ ((w = 1 ∧ i = .debS1 lane) ∨ (w = 0 ∧ i = .debS0 lane)) := by
  constructor
  · intro h
    have hbit : w < 2 := lt_width_of_decode_ok h
    rw [decode_deb, if_neg (Nat.not_le.2 hbit)] at h
    split at h
    · cases h
    · have hlane : lane < n := by omega
      split at h
      · cases h
        exact ⟨hlane, .inl ⟨by assumption, rfl⟩⟩
      · cases h
        exact ⟨hlane, .inr ⟨by omega, rfl⟩⟩
  · rintro ⟨hlane, ⟨rfl, rfl⟩ | ⟨rfl, rfl⟩⟩
    · simp [decode_deb, hlane]
    · simp [decode_deb, hlane]

theorem eq_of_decode_rst_eq_ok {n w : Nat} {i : Instr} (h : decode n .rst w = .ok i) : w = 1 ∧ i = .reset := by
  have hbit : w < 2 := lt_width_of_decode_ok h
  rw [decode_rst, if_neg (Nat.not_le.2 hbit)] at h
  split at h
  · cases h
    exact ⟨by assumption, rfl⟩
  · cases h

/-- A field of a word is what its bits hold, and no more. -/
theorem toNat_ofNat_bitField (w lo width : Nat) :
    (BitVec.ofNat width (bitField w lo width)).toNat = w / 2 ^ lo % 2 ^ width := by
  simp [bitField]

/-- The two fields of a MIX word are all of it. -/
theorem encode_decodeMix {w : Nat} (h : w < 2 ^ 32) : encode (decodeMix w) = (.mix, w) := by
  simp only [decodeMix, encode, toNat_ofNat_bitField, Prod.mk.injEq, true_and]
  omega

/-- The three fields of a DUTY word are all of it. -/
theorem encode_decodeDuty {w : Nat} (h : w < 2 ^ 41) : encode (decodeDuty w) = (.duty, w) := by
  simp only [decodeDuty, encode, toNat_ofNat_bitField, bitAt_toNat, Prod.mk.injEq, true_and]
  omega

/-- The fields above the samples are all of what stands there. -/
theorem motionWord_bitFields {v : Nat} (h : v < 2 ^ 66) :
    motionWord (BitVec.ofNat 16 (bitField v 0 16)) (BitVec.ofNat 16 (bitField v 16 16)) (bitAt v 32) (bitAt v 33)
      (BitVec.ofNat 32 (bitField v 34 32)) = v := by
  simp only [motionWord, toNat_ofNat_bitField, bitAt_toNat]
  omega

/-- The samples and the fields above them are all of a POLL word. -/
theorem encode_decodePoll {n w : Nat} (h : w < 2 ^ (n + 66)) : encode (decodePoll n w) = (.poll, w) := by
  have habove : w / 2 ^ n < 2 ^ 66 := by
    rw [Nat.div_lt_iff_lt_mul (Nat.two_pow_pos n), ← pow_add, Nat.add_comm]
    exact h
  rw [decodePoll_eq, encode_poll, motionWord_bitFields habove, packBits_sampleBits, sampleBits_length, Nat.mod_add_div]

end Sys2Proof

/-- Settles O1: the fields of every format read back what was laid into them, since the fields below fit in their bits. -/
theorem decodeOfEncode : Obligations.DecodeOfEncode := by
  unfold Obligations.DecodeOfEncode
  intro n i hwf
  cases i with
  | debS1 lane => exact decode_deb_eq_ok_iff.2 ⟨of_decide_eq_true hwf, .inl ⟨rfl, rfl⟩⟩
  | debS0 lane => exact decode_deb_eq_ok_iff.2 ⟨of_decide_eq_true hwf, .inr ⟨rfl, rfl⟩⟩
  | mix linear rot => exact decode_encode_mix n linear rot
  | duty cmd brake pwmFloor => exact decode_encode_duty n cmd brake pwmFloor
  | poll samples linear rot brakeL brakeR pwmFloor =>
    obtain rfl : samples.length = n := of_decide_eq_true hwf
    exact decode_encode_poll samples linear rot brakeL brakeR pwmFloor
  | reset => simp [encode, decode_rst]

/-- Settles O2: a word that decodes is no wider than its format, so its fields together are all of it; DEB and RST words
are the single bit. -/
theorem encodeOfDecode : Obligations.EncodeOfDecode := by
  unfold Obligations.EncodeOfDecode
  intro n f w i h
  have hw := lt_width_of_decode_ok h
  cases f with
  | deb lane =>
    obtain ⟨hlane, ⟨rfl, rfl⟩ | ⟨rfl, rfl⟩⟩ := decode_deb_eq_ok_iff.1 h
    · exact ⟨rfl, decide_eq_true hlane⟩
    · exact ⟨rfl, decide_eq_true hlane⟩
  | mix =>
    obtain rfl := Except.ok.inj ((decode_mix n hw).symm.trans h)
    exact ⟨encode_decodeMix hw, rfl⟩
  | duty =>
    obtain rfl := Except.ok.inj ((decode_duty n hw).symm.trans h)
    exact ⟨encode_decodeDuty hw, rfl⟩
  | poll =>
    obtain rfl := Except.ok.inj ((decode_poll hw).symm.trans h)
    exact ⟨encode_decodePoll hw, decide_eq_true (sampleBits_length n w)⟩
  | rst =>
    obtain ⟨rfl, rfl⟩ := eq_of_decode_rst_eq_ok h
    exact ⟨rfl, rfl⟩

/-- Settles O3: the width check comes first in every format; below it a DEB word meets the lane check, an RST word is a
single bit, and the other formats decode whatever their fields hold. -/
theorem decodeAcceptsExactly : Obligations.DecodeAcceptsExactly := by
  unfold Obligations.DecodeAcceptsExactly
  intro n w
  refine ⟨fun lane => ⟨fun ⟨i, h⟩ => ⟨(decode_deb_eq_ok_iff.1 h).1, lt_width_of_decode_ok h⟩,
      fun ⟨hlane, hw⟩ => ?_⟩,
    fun lane hlane => ⟨decode_deb_eq_ok_iff.2 ⟨hlane, .inl ⟨rfl, rfl⟩⟩,
      decode_deb_eq_ok_iff.2 ⟨hlane, .inr ⟨rfl, rfl⟩⟩⟩,
    fun lane => decode_of_width_le (f := .deb lane), fun lane hlane hw => ?_,
    fun hw => ⟨_, _, decode_mix n hw⟩, decode_of_width_le (f := .mix),
    fun hw => ⟨_, _, _, decode_duty n hw⟩, decode_of_width_le (f := .duty),
    fun hw => ⟨_, _, _, _, _, _, decode_poll hw⟩, decode_of_width_le (f := .poll),
    ?_, ?_, decode_of_width_le (f := .rst)⟩
  · rcases (by omega : w = 1 ∨ w = 0) with rfl | rfl
    · exact ⟨_, decode_deb_eq_ok_iff.2 ⟨hlane, .inl ⟨rfl, rfl⟩⟩⟩
    · exact ⟨_, decode_deb_eq_ok_iff.2 ⟨hlane, .inr ⟨rfl, rfl⟩⟩⟩
  · rw [decode_deb, if_neg (Nat.not_le.2 hw), if_pos hlane]
  · simp [decode_rst]
  · simp [decode_rst]

/-- Settles O4: the nine words, each decoded field by field. -/
theorem tableWordsDecode : Obligations.TableWordsDecode := by
  unfold Obligations.TableWordsDecode
  exact ⟨rfl, rfl, rfl, rfl, rfl, rfl, rfl, rfl, rfl⟩
end

section
/-! PROOFS. The lane machine on a sequence of samples (40_debounce.md's derived properties): which Transition it shows at
each position and which counter a history leaves (R71, R72, R76). -/

open Sys2Proof Sys2Proof.Machine

namespace Sys2Proof.Machine

/-! ## The complete table of one lane -/

theorem laneStep_unasserted_of_floor {F : Int} {c : Counter} (h1 : -127 ≤ F) (h2 : F ≤ -1) (hc : c.toInt = F) :
    laneStep F c false = some (.unchanged, c) := by
  obtain ⟨d, hstep, hd⟩ := laneStep_unasserted h1 h2 (c := c) ⟨hc.ge, by omega⟩
  obtain rfl : d = c := BitVec.eq_of_toInt_eq (by omega)
  rw [hstep, if_neg (by omega)]

end Sys2Proof.Machine

/-- Settles O13: the asserted step is Pressed below 1, the unasserted one Released just at F + 1 and no lower than F. -/
theorem laneTable : Obligations.LaneTable := by
  unfold Obligations.LaneTable
  intro F c h1 h2 hc
  obtain ⟨d, hstep, hd⟩ := laneStep_unasserted h1 h2 hc
  refine ⟨fun hle => ?_, fun hone => ?_, laneStep_unasserted_of_floor h1 h2, fun hnear => ⟨d, ?_, by omega⟩,
    fun habove => ⟨d, ?_, by omega⟩⟩
  · rw [laneStep_asserted hc, if_pos (by omega)]
  · rw [laneStep_asserted hc, if_neg (by omega)]
  · rw [hstep, if_pos hnear]
  · rw [hstep, if_neg (by omega)]

namespace Sys2Proof.Machine

/-! ## A run from a counter in range, as two total functions -/

/-- The Transition a lane shows on a sample (R71, R72). -/
def laneOut (F : Int) (c : Counter) (b : Bool) : Transition := (if b then assertedStep c else unassertedStep F c).1

/-- The counter a sample leaves (R71, R72). -/
def laneNext (F : Int) (c : Counter) (b : Bool) : Counter := (if b then assertedStep c else unassertedStep F c).2

/-- The counter a history of samples leaves. -/
def counterAfter (F : Int) (c : Counter) (bs : List Bool) : Counter := bs.foldl (laneNext F) c

/-- The Transitions a lane shows on a history of samples. -/
def laneTrace (F : Int) : Counter → List Bool → List Transition
  | _, [] => []
  | c, b :: bs => laneOut F c b :: laneTrace F (laneNext F c b) bs

@[simp] theorem counterAfter_nil (F : Int) (c : Counter) : counterAfter F c [] = c := rfl

@[simp] theorem counterAfter_cons (F : Int) (c : Counter) (b : Bool) (bs : List Bool) :
    counterAfter F c (b :: bs) = counterAfter F (laneNext F c b) bs := rfl

@[simp] theorem counterAfter_append (F : Int) (c : Counter) (as bs : List Bool) :
    counterAfter F c (as ++ bs) = counterAfter F (counterAfter F c as) bs := List.foldl_append

@[simp] theorem laneNext_true (F : Int) (c : Counter) : laneNext F c true = 1 := assertedStep_snd c

theorem laneOut_true (F : Int) (c : Counter) : laneOut F c true = if c.toInt < 1 then .pressed else .unchanged :=
  assertedStep_fst c

theorem laneOut_false (F : Int) (c : Counter) :
    laneOut F c false = if c.toInt = F + 1 then .released else .unchanged :=
  unassertedStep_fst F c

theorem laneOut_eq_pressed_iff {F : Int} {c : Counter} {b : Bool} :
    laneOut F c b = .pressed ↔ b = true ∧ c.toInt < 1 := by
  cases b with
  | true => simp [laneOut_true]
  | false =>
    rw [laneOut_false]
    split <;> simp

theorem laneOut_eq_released_iff {F : Int} {c : Counter} {b : Bool} :
    laneOut F c b = .released ↔ b = false ∧ c.toInt = F + 1 := by
  cases b with
  | true =>
    rw [laneOut_true]
    split <;> simp
  | false => simp [laneOut_false]

@[simp] theorem laneTrace_length (F : Int) (c : Counter) (bs : List Bool) :
    (laneTrace F c bs).length = bs.length := by
  induction bs generalizing c with
  | nil => rfl
  | cons b bs ih => simp [laneTrace, ih]

theorem laneTrace_append (F : Int) (c : Counter) (as bs : List Bool) :
    laneTrace F c (as ++ bs) = laneTrace F c as ++ laneTrace F (counterAfter F c as) bs := by
  induction as generalizing c with
  | nil => rfl
  | cons a as ih => simp [laneTrace, ih]

/-- What a lane shows at a position is told by the sample there and the counter its history left. -/
theorem laneTrace_getElem? (F : Int) (c : Counter) (bs : List Bool) (j : Nat) :
    (laneTrace F c bs)[j]? = bs[j]?.map (laneOut F (counterAfter F c (bs.take j))) := by
  induction bs generalizing c j with
  | nil => rfl
  | cons b bs ih =>
    cases j with
    | zero => rfl
    | succ j => simp [laneTrace, ih]

theorem laneTrace_pressed_iff {F : Int} {c : Counter} {bs : List Bool} {j : Nat} :
    (laneTrace F c bs)[j]? = some .pressed ↔ bs[j]? = some true ∧ (counterAfter F c (bs.take j)).toInt < 1 := by
  simp [laneTrace_getElem?, laneOut_eq_pressed_iff]

theorem laneTrace_released_iff {F : Int} {c : Counter} {bs : List Bool} {j : Nat} :
    (laneTrace F c bs)[j]? = some .released ↔ bs[j]? = some false ∧ (counterAfter F c (bs.take j)).toInt = F + 1 := by
  simp [laneTrace_getElem?, laneOut_eq_released_iff]

theorem counterAfter_take_succ {F : Int} {c : Counter} {bs : List Bool} {j : Nat} {b : Bool} (h : bs[j]? = some b) :
    counterAfter F c (bs.take (j + 1)) = laneNext F (counterAfter F c (bs.take j)) b := by
  simp [List.take_add_one, h]

section
variable {F : Int} {c : Counter} (h1 : -127 ≤ F) (h2 : F ≤ -1)
include h1 h2

theorem laneNext_false_toInt (hc : CounterInRange F c) : (laneNext F c false).toInt = max (c.toInt - 1) F :=
  unassertedStep_snd_toInt h1 h2 hc

theorem laneNext_inRange (hc : CounterInRange F c) (b : Bool) : CounterInRange F (laneNext F c b) :=
  laneStep_inRange h1 h2 (laneStep_of_inRange hc b)

/-- The counter is below 1 after an unasserted sample only. -/
theorem laneNext_lt_one_iff (hc : CounterInRange F c) (b : Bool) : (laneNext F c b).toInt < 1 ↔ b = false := by
  have hhigh := hc.2
  cases b with
  | true => simp
  | false =>
    rw [laneNext_false_toInt h1 h2 hc]
    exact ⟨fun _ => rfl, fun _ => by omega⟩

theorem counterAfter_inRange (hc : CounterInRange F c) (bs : List Bool) : CounterInRange F (counterAfter F c bs) := by
  induction bs generalizing c with
  | nil => exact hc
  | cons b bs ih => exact ih (laneNext_inRange h1 h2 hc b)

theorem laneRun_of_inRange (hc : CounterInRange F c) (bs : List Bool) :
    laneRun F c bs = some (laneTrace F c bs, counterAfter F c bs) := by
  induction bs generalizing c with
  | nil => rfl
  | cons b bs ih =>
    have hnext : CounterInRange F (if b then assertedStep c else unassertedStep F c).2 := laneNext_inRange h1 h2 hc b
    simp only [laneRun, laneStep_of_inRange hc, ih hnext]
    rfl

/-- k unasserted samples lower the counter by k, but never below the floor (R72). -/
theorem counterAfter_replicate_false_toInt (hc : CounterInRange F c) (k : Nat) :
    (counterAfter F c (List.replicate k false)).toInt = max (c.toInt - k) F := by
  induction k with
  | zero => simp [hc.1]
  | succ k ih =>
    rw [List.replicate_succ', counterAfter_append]
    have hprev := counterAfter_inRange h1 h2 hc (List.replicate k false)
    rw [counterAfter_cons, counterAfter_nil, laneNext_false_toInt h1 h2 hprev, ih]
    omega

/-- A lane shows nothing on unasserted samples that stay above the floor, or begin at it. -/
theorem laneTrace_replicate_false (hc : CounterInRange F c) {k : Nat} (hk : c.toInt = F ∨ (k : Int) < c.toInt - F) :
    laneTrace F c (List.replicate k false) = List.replicate k .unchanged := by
  induction k generalizing c with
  | zero => rfl
  | succ k ih =>
    have hquiet : c.toInt ≠ F + 1 := by omega
    have hnext := laneNext_false_toInt h1 h2 hc
    rw [List.replicate_succ, List.replicate_succ, laneTrace, laneOut_false, if_neg hquiet,
      ih (laneNext_inRange h1 h2 hc false) (by omega)]

end

theorem counter_zero_toInt : (0 : Counter).toInt = 0 := BitVec.toInt_zero

theorem counter_one_toInt : (1 : Counter).toInt = 1 := rfl

theorem counterInRange_zero_of_neg {F : Int} (h : F ≤ -1) : CounterInRange F 0 := by
  have hval := counter_zero_toInt
  exact ⟨by omega, by omega⟩

theorem counterInRange_one_of_neg {F : Int} (h : F ≤ -1) : CounterInRange F 1 := by
  have hval := counter_one_toInt
  exact ⟨by omega, by omega⟩

/-! ## Where the unasserted samples before a position begin -/

/-- The samples from `start` up to `j` are unasserted. -/
def UnassertedFrom (bs : List Bool) (start j : Nat) : Prop :=
  ∀ m : Nat, start ≤ m → m < j → bs[m]? = some false

/-- Before any position stands a run of unasserted samples, perhaps empty, that begins at the first sample or right
after an asserted one. -/
theorem exists_unassertedFrom (bs : List Bool) (j : Nat) (hj : j ≤ bs.length) :
    ∃ start ≤ j, UnassertedFrom bs start j ∧ (start = 0 ∨ (0 < start ∧ bs[start - 1]? = some true)) := by
  induction j with
  | zero => exact ⟨0, le_rfl, fun m _ hm => absurd hm (Nat.not_lt_zero m), .inl rfl⟩
  | succ j ih =>
    cases hb : bs[j] with
    | true =>
      exact ⟨j + 1, le_rfl, fun m hm hm' => by omega,
        .inr ⟨Nat.succ_pos j, List.getElem?_eq_some_iff.2 ⟨hj, hb⟩⟩⟩
    | false =>
      obtain ⟨start, hle, hfrom, hstart⟩ := ih (by omega)
      refine ⟨start, by omega, fun m hm hm' => ?_, hstart⟩
      rcases Nat.lt_succ_iff_lt_or_eq.1 hm' with hlt | rfl
      · exact hfrom m hm hlt
      · exact List.getElem?_eq_some_iff.2 ⟨hj, hb⟩

theorem take_eq_append_replicate {bs : List Bool} {start j : Nat} (hle : start ≤ j) (h : UnassertedFrom bs start j) :
    bs.take j = bs.take start ++ List.replicate (j - start) false := by
  induction j, hle using Nat.le_induction with
  | base => simp
  | succ j hle ih =>
    have hprev : UnassertedFrom bs start j := fun m hm hm' => h m hm (by omega)
    rw [List.take_add_one, ih hprev, h j hle (Nat.lt_succ_self j), Nat.succ_sub hle, List.replicate_succ',
      List.append_assoc]
    rfl

/-- The counter before a position, from the run of unasserted samples that stands there. -/
theorem counterAfter_take_toInt {F : Int} {c : Counter} (h1 : -127 ≤ F) (h2 : F ≤ -1) (hc : CounterInRange F c)
    {bs : List Bool} {start j : Nat} (hle : start ≤ j) (h : UnassertedFrom bs start j) :
    (counterAfter F c (bs.take j)).toInt =
      max ((counterAfter F c (bs.take start)).toInt - (j - start : Nat)) F := by
  rw [take_eq_append_replicate hle h, counterAfter_append,
    counterAfter_replicate_false_toInt h1 h2 (counterAfter_inRange h1 h2 hc _)]

/-- An asserted sample leaves 1 (R71). -/
theorem counterAfter_take_start_toInt {F : Int} {c : Counter} {bs : List Bool} {start : Nat} (hpos : 0 < start)
    (h : bs[start - 1]? = some true) : (counterAfter F c (bs.take start)).toInt = 1 := by
  obtain ⟨p, rfl⟩ : ∃ p, start = p + 1 := ⟨start - 1, by omega⟩
  rw [counterAfter_take_succ (by simpa using h), laneNext_true, counter_one_toInt]

end Sys2Proof.Machine

/-- Settles O14: from a counter in range every sample has its Transition and leaves a counter in range. -/
theorem laneRunStaysInRange : Obligations.LaneRunStaysInRange := by
  unfold Obligations.LaneRunStaysInRange
  intro F c samples h1 h2 hc
  exact ⟨_, _, laneRun_of_inRange h1 h2 hc samples, laneTrace_length F c samples, counterAfter_inRange h1 h2 hc samples⟩

/-- Settles O15: Pressed is shown on an asserted sample that finds the counter below 1, which from reset it is at first
and after an unasserted sample. -/
theorem pressedOncePerAssertedRun : Obligations.PressedOncePerAssertedRun := by
  unfold Obligations.PressedOncePerAssertedRun
  intro F samples ts d h1 h2 hrun j
  have hzero := counterInRange_zero_of_neg h2
  cases (laneRun_of_inRange h1 h2 hzero samples).symm.trans hrun
  rw [laneTrace_pressed_iff, and_congr_right_iff]
  intro hj
  cases j with
  | zero => simp
  | succ j =>
    obtain ⟨hlt, -⟩ := List.getElem?_eq_some_iff.1 hj
    have hprev : samples[j]? = some samples[j] := List.getElem?_eq_getElem (by omega)
    rw [counterAfter_take_succ hprev, laneNext_lt_one_iff h1 h2 (counterAfter_inRange h1 h2 hzero _)]
    simp [hprev]

/-- Settles O16: Released is shown on an unasserted sample that finds the counter at F + 1, and the counter falls from 0
at reset, from 1 after an asserted sample, by one a sample. -/
theorem releasedExactlyAtTheFloor : Obligations.ReleasedExactlyAtTheFloor := by
  unfold Obligations.ReleasedExactlyAtTheFloor
  intro F samples ts d h1 h2 hrun j
  have hzero := counterInRange_zero_of_neg h2
  have hreset := counter_zero_toInt
  cases (laneRun_of_inRange h1 h2 hzero samples).symm.trans hrun
  rw [laneTrace_released_iff]
  constructor
  · rintro ⟨hj, hcounter⟩
    obtain ⟨hlt, -⟩ := List.getElem?_eq_some_iff.1 hj
    obtain ⟨start, hle, hfrom, hstart⟩ := exists_unassertedFrom samples j hlt.le
    rw [counterAfter_take_toInt h1 h2 hzero hle hfrom] at hcounter
    refine ⟨start, hle, fun m hm hm' => ?_, ?_⟩
    · rcases Nat.lt_or_eq_of_le hm' with hmj | rfl
      · exact hfrom m hm hmj
      · exact hj
    · rcases hstart with rfl | ⟨hpos, htrue⟩
      · rw [List.take_zero, counterAfter_nil] at hcounter
        exact .inl ⟨rfl, by omega⟩
      · rw [counterAfter_take_start_toInt hpos htrue] at hcounter
        exact .inr ⟨hpos, htrue, by omega⟩
  · rintro ⟨start, hle, hall, hstart⟩
    refine ⟨hall j hle le_rfl, ?_⟩
    rw [counterAfter_take_toInt h1 h2 hzero hle fun m hm hm' => hall m hm hm'.le]
    rcases hstart with ⟨rfl, hlen⟩ | ⟨hpos, htrue, hlen⟩
    · rw [List.take_zero, counterAfter_nil]
      omega
    · rw [counterAfter_take_start_toInt hpos htrue]
      omega

/-- Settles O17: Released leaves the counter at the floor, where unasserted samples keep it, while Released needs it one
higher. -/
theorem noReleasedTwiceWithoutAssertion : Obligations.NoReleasedTwiceWithoutAssertion := by
  unfold Obligations.NoReleasedTwiceWithoutAssertion
  intro F c samples ts d h1 h2 hc hrun i j hij hi hj
  cases (laneRun_of_inRange h1 h2 hc samples).symm.trans hrun
  obtain ⟨hbi, hci⟩ := laneTrace_released_iff.1 hi
  obtain ⟨hbj, hcj⟩ := laneTrace_released_iff.1 hj
  obtain ⟨hlt, -⟩ := List.getElem?_eq_some_iff.1 hbj
  by_contra hnone
  have hfrom : UnassertedFrom samples (i + 1) j := by
    intro m hm hm'
    have hget : samples[m]? = some samples[m] := List.getElem?_eq_getElem (by omega)
    cases hb : samples[m] with
    | true => exact absurd ⟨m, hm, hm', hb ▸ hget⟩ hnone
    | false => exact hb ▸ hget
  have hnext := laneNext_false_toInt h1 h2 (counterAfter_inRange h1 h2 hc (samples.take i))
  rw [counterAfter_take_toInt h1 h2 hc hij hfrom, counterAfter_take_succ hbi, hnext] at hcj
  omega

/-- Settles O18: the k samples of the gap leave the counter between F + 1 and 0, so they show nothing and the next
asserted sample finds it below 1. -/
theorem shortGapPressesAgain : Obligations.ShortGapPressesAgain := by
  unfold Obligations.ShortGapPressesAgain
  intro F c k h1 h2 hc hk hgap
  have hone := counterInRange_one_of_neg h2
  have hval := counter_one_toInt
  have hquiet := laneTrace_replicate_false h1 h2 hone (k := k) (.inr (by omega))
  have hcounter := counterAfter_replicate_false_toInt h1 h2 hone k
  refine ⟨laneOut F c true, ?_⟩
  rw [laneRun_of_inRange h1 h2 hc]
  simp only [List.cons_append, laneTrace, laneNext_true, laneTrace_append, hquiet, counterAfter_cons, counterAfter_append,
    counterAfter_nil]
  rw [laneOut_true F (counterAfter F 1 (List.replicate k false)), if_pos (by omega)]

/-- Settles O19: m unasserted samples take the counter from 0 to F + 1, the next shows Released, and at the floor nothing
more is shown. -/
theorem startUpReleasedOnce : Obligations.StartUpReleasedOnce := by
  unfold Obligations.StartUpReleasedOnce
  intro F m k h1 h2 hm
  have hzero := counterInRange_zero_of_neg h2
  have hreset := counter_zero_toInt
  have hquiet := laneTrace_replicate_false h1 h2 hzero (k := m) (.inr (by omega))
  have hcounter := counterAfter_replicate_false_toInt h1 h2 hzero m
  have hprev := counterAfter_inRange h1 h2 hzero (List.replicate m false)
  have hfloor := laneNext_false_toInt h1 h2 hprev
  have hrest := laneTrace_replicate_false h1 h2 (laneNext_inRange h1 h2 hprev false) (k := k) (.inl (by omega))
  refine ⟨_, ?_, (counterAfter_replicate_false_toInt h1 h2 hzero (m + 1 + k)).trans (by omega)⟩
  rw [laneRun_of_inRange h1 h2 hzero]
  have hsplit : List.replicate (m + 1 + k) false = List.replicate m false ++ false :: List.replicate k false := by
    rw [Nat.add_assoc, Nat.add_comm 1 k, List.replicate_add, List.replicate_succ]
  have htrace : laneTrace F 0 (List.replicate (m + 1 + k) false) =
      List.replicate m .unchanged ++ .released :: List.replicate k .unchanged := by
    rw [hsplit, laneTrace_append, hquiet, laneTrace, laneOut_false, if_pos (by omega), hrest]
  rw [htrace]

/-- Settles O20: an asserted sample leaves 1 and reset 0, and each unasserted sample takes one off down to the floor. -/
theorem counterAfterUnassertedRun : Obligations.CounterAfterUnassertedRun := by
  unfold Obligations.CounterAfterUnassertedRun
  intro F c k h1 h2 hc
  refine ⟨⟨_, _, laneRun_of_inRange h1 h2 hc _, ?_⟩,
    ⟨_, _, laneRun_of_inRange h1 h2 (counterInRange_zero_of_neg h2) _, ?_⟩⟩
  · rw [counterAfter_cons, laneNext_true, counterAfter_replicate_false_toInt h1 h2 (counterInRange_one_of_neg h2),
      counter_one_toInt]
  · rw [counterAfter_replicate_false_toInt h1 h2 (counterInRange_zero_of_neg h2), counter_zero_toInt, zero_sub]
end

section
/-! PROOFS. The motion path's arithmetic: the mixer's outputs by case (41_mixer.md's derived properties) and the two
channels of a mapper (42_output_mapper.md's boundaries). -/

open Sys2Proof Sys2Proof.Machine

namespace Sys2Proof.Machine

/-! ## The mixer by case -/

/-- When nothing saturates there is no shift (R93). -/
theorem saturationShift_of_inRange {l r : Int} (hl : CommandInRange l) (hr : CommandInRange r) :
    saturationShift l r = 0 := by
  obtain ⟨hllow, hlhigh⟩ := hl
  obtain ⟨hrlow, hrhigh⟩ := hr
  rw [saturationShift, if_neg (by omega), if_neg (by omega), if_neg (by omega), if_neg (by omega)]

theorem mix_commandInRange (linear rot : Axis) :
    CommandInRange (mix linear rot).left.toInt ∧ CommandInRange (mix linear rot).right.toInt := by
  obtain ⟨hl, hr⟩ := shifted_range (clampAxis_range linear) (clampAxis_range rot)
  rw [mix_left_toInt, mix_right_toInt]
  exact ⟨hl, by omega, by omega⟩

/-- Of two clamped axes the difference and the sum do not both leave the range. -/
theorem commandInRange_sub_or_add (linear rot : Axis) :
    CommandInRange (clampAxis linear - clampAxis rot) ∨ CommandInRange (clampAxis linear + clampAxis rot) := by
  have hlin := clampAxis_range linear
  have hro := clampAxis_range rot
  unfold CommandInRange
  omega

theorem not_commandInRange {v : Int} (h : v > 127 ∨ v < -127) : ¬ CommandInRange v := by
  unfold CommandInRange
  omega

/-! ## The zero of each port, read as a number -/

theorem command_eq_zero_iff (cmd : MotorCommand) : cmd = 0 ↔ cmd.toInt = 0 := BitVec.toInt_inj.symm

theorem level_eq_zero_iff (level : Level) : level = 0 ↔ level.toNat = 0 := BitVec.toNat_inj.symm

/-! ## The mixer's pair in the all-zero snapshot -/

theorem mix_fullForward : mix 128 (-128) = ⟨127, 127⟩ := rfl

end Sys2Proof.Machine

/-- Settles O23: two clamped axes, mixed and shifted, stay in [-127, 127]. -/
theorem mixOutputsInRange : Obligations.MixOutputsInRange := by
  unfold Obligations.MixOutputsInRange
  intro linear rot
  obtain ⟨hleft, hright⟩ := mix_commandInRange linear rot
  obtain ⟨hl, hr⟩ := mix_cmdInContract linear rot
  exact ⟨hleft, hright, hl.ne_0x80, hr.ne_0x80⟩

/-- Settles O24: of the sum and the difference of two clamped axes one at most leaves the range, so the shift is that
one's excess. -/
theorem oneSaturationConditionAtMost : Obligations.OneSaturationConditionAtMost := by
  unfold Obligations.OneSaturationConditionAtMost
  rintro linear rot _ _ rfl rfl
  refine ⟨fun h => ?_, fun h => ?_, fun h => ?_, fun h => ?_⟩
  · obtain ⟨hlow, hhigh⟩ := (commandInRange_sub_or_add linear rot).resolve_left (not_commandInRange (.inl h))
    rw [saturationShift_of_left_over h]
    omega
  · obtain ⟨hlow, hhigh⟩ := (commandInRange_sub_or_add linear rot).resolve_left (not_commandInRange (.inr h))
    rw [saturationShift_of_left_under h]
    omega
  · have hl := (commandInRange_sub_or_add linear rot).resolve_right (not_commandInRange (.inl h))
    rw [saturationShift_of_right_over hl h]
    omega
  · have hl := (commandInRange_sub_or_add linear rot).resolve_right (not_commandInRange (.inr h))
    rw [saturationShift_of_right_under hl h]
    omega

/-- Settles O25: the shift is subtracted from both sums, so it cancels in `left + right`; without one the outputs are the
sums themselves. -/
theorem mixKeepsTheDifferential : Obligations.MixKeepsTheDifferential := by
  unfold Obligations.MixKeepsTheDifferential
  intro linear rot
  rw [mix_left_toInt, mix_right_toInt]
  refine ⟨by ring, fun hl hr => ?_⟩
  rw [saturationShift_of_inRange hl hr]
  ring

/-- Settles O26: in each case the shift is the excess of the one sum out of range. -/
theorem mixClosedForm : Obligations.MixClosedForm := by
  unfold Obligations.MixClosedForm
  rintro linear rot _ _ rfl rfl
  rw [mix_left_toInt, mix_right_toInt]
  refine ⟨fun h => ?_, fun h => ?_, fun h => ?_, fun h => ?_, fun hl hr => ?_⟩
  · rw [saturationShift_of_left_over h]
    omega
  · rw [saturationShift_of_left_under h]
    omega
  · have hl := (commandInRange_sub_or_add linear rot).resolve_right (not_commandInRange (.inl h))
    rw [saturationShift_of_right_over hl h]
    omega
  · have hl := (commandInRange_sub_or_add linear rot).resolve_right (not_commandInRange (.inr h))
    rw [saturationShift_of_right_under hl h]
    omega
  · rw [saturationShift_of_inRange hl hr]
    omega

/-- Settles O30: by the command's sign a mapper drives one channel, at the floor plus the magnitude, or both alike. -/
theorem dutyChannelBounds : Obligations.DutyChannelBounds := by
  unfold Obligations.DutyChannelBounds
  intro cmd brake f d hd
  obtain ⟨hc, hf, rfl⟩ := toDuty_eq_ok_iff.1 hd
  have hmag : cmd.toInt.natAbs ≤ 127 := magnitude_le hc
  simp only [Ne, command_eq_zero_iff, level_eq_zero_iff]
  rcases lt_trichotomy cmd.toInt 0 with hneg | hnone | hpos
  · obtain ⟨ha, hb⟩ := dutyPair_toNat_of_neg hc hf brake hneg
    omega
  · cases brake with
    | false =>
      obtain ⟨ha, hb⟩ := dutyPair_toNat_of_coast f hnone
      simp [ha, hb, hnone]
    | true =>
      obtain ⟨ha, hb⟩ := dutyPair_toNat_of_brake hf hnone
      simp [ha, hb, hnone]
  · obtain ⟨ha, hb⟩ := dutyPair_toNat_of_pos hc hf brake hpos
    omega

/-- Settles O36: `linear = 128` and `rot = -128` clamp to the case "l over", both commands are 127, and 127 is forward. -/
theorem allZeroSnapshotDrivesFullForward : Obligations.AllZeroSnapshotDrivesFullForward := by
  unfold Obligations.AllZeroSnapshotDrivesFullForward
  intro s t samples f h
  obtain ⟨-, -, hf, -, lanes, -, rfl⟩ := execPoll_next h
  obtain ⟨ha, hb⟩ := dutyPair_toNat_of_pos (cmd := 127) (by decide) hf false (by decide)
  have hval : (127 : MotorCommand).toInt = 127 := rfl
  simp only [mix_fullForward]
  exact ⟨rfl, rfl, _, rfl, rfl, ha, by omega⟩
end

section
/-! PROOFS. The parts of the block alone and together (40_debounce.md R73, R76; 43_core_step.md R136): what a standalone
DEB, MIX and DUTY touch, that a POLL is its parts, and that polls in sequence run each lane on its own samples. -/

open Sys2Proof Sys2Proof.Machine

namespace Sys2Proof.Machine

/-! ## Operations one after the other -/

theorem execAll_pair_next {i j : Instr} {s t : State} (h : execAll [i, j] s = .next t) :
    ∃ u, exec i s = .next u ∧ exec j u = .next t := by
  unfold execAll at h
  split at h
  · rename_i u hi
    unfold execAll at h
    split at h
    · rename_i v hj
      cases h
      exact ⟨u, hi, hj⟩
    · cases h
    · cases h
  · cases h
  · cases h

theorem execAll_pair_of_next {i j : Instr} {s u t : State} (hi : exec i s = .next u) (hj : exec j u = .next t) :
    execAll [i, j] s = .next t := by
  rw [execAll_cons_of_next hi, execAll_cons_of_next hj, execAll]

/-! ## A POLL that goes through, lane by lane and part by part -/

theorem panelStep_cons_ok {F : Int} {c : Counter} {cs : List Counter} {b : Bool} {bs : List Bool}
    {rs : List (Transition × Counter)} (h : panelStep F (c :: cs) (b :: bs) = .ok rs) :
    ∃ tr d rs', laneStep F c b = some (tr, d) ∧ panelStep F cs bs = .ok rs' ∧ rs = (tr, d) :: rs' := by
  unfold panelStep at h
  split at h
  · rename_i r rs' hr hrs
    cases h
    exact ⟨r.1, r.2, rs', hr, hrs, rfl⟩
  · cases h
  · cases h

/-- DEB on the lanes from `done.length` on, one after the other, leaves what one step of the panel leaves there. -/
theorem execAll_laneOps {cs : List Counter} {bs : List Bool} {rs : List (Transition × Counter)} {s : State}
    {done : List Counter} (hl : s.cfg.Legal) (hr : s.resetDone = true) (hcnt : s.cnt = done ++ cs)
    (hn : done.length + cs.length ≤ s.cfg.nInputs) (hp : panelStep s.cfg.debounceFloor cs bs = .ok rs) :
    ∃ u, execAll (laneOps done.length bs) s = .next u ∧ u.cnt = done ++ rs.map Prod.snd := by
  induction bs generalizing cs rs s done with
  | nil =>
    obtain ⟨hrs, hbs, -⟩ := panelStep_ok hp
    obtain rfl : cs = [] := List.eq_nil_of_length_eq_zero hbs.symm
    obtain rfl : rs = [] := List.eq_nil_of_length_eq_zero hrs
    exact ⟨s, rfl, hcnt⟩
  | cons b bs ih =>
    cases cs with
    | nil => cases hp
    | cons c cs =>
      obtain ⟨tr, d, rs', hstep, hrest, rfl⟩ := panelStep_cons_ok hp
      rw [List.length_cons] at hn
      have hc : s.cnt[done.length]? = some c := by simp [hcnt]
      have hdeb := debounceLane_eq hl hr (by omega) hc hstep
      rw [← laneOp_exec] at hdeb
      obtain ⟨u, hall, hu⟩ := ih (done := done ++ [d])
        (s := (s.writeCounter done.length d).drive (Outputs.ofLane s.cfg.nInputs done.length tr)) (cs := cs) hl hr
        (by simp [hcnt]) (by simp; omega) hrest
      rw [List.length_append, List.length_singleton] at hall
      exact ⟨u, (execAll_cons_of_next hdeb).trans hall, by simpa using hu⟩

/-! ## A presented POLL -/

theorem step_presentInstr {s : State} {i : Instr} {rest : List Presented} (h : s.pending = presentInstr i :: rest)
    (hi : i.wellFormed s.cfg.nInputs = true) : step s = exec i (s.withPending rest) := by
  rw [step, h]
  simp only [presentInstr, decodeOfEncode _ i hi]

/-- What a presented POLL in contract does to one lane: that lane's own step; and another POLL can follow. -/
theorem advance_poll_lane {s : State} {samples : List Bool} {linear rot : Axis} {bl br : Bool} {f : Level}
    {rest : List Presented} {lane : Nat} {c : Counter} {b : Bool} (hinv : s.Inv) (hr : s.resetDone = true)
    (hpending : s.pending = presentInstr (.poll samples linear rot bl br f) :: rest)
    (hn : samples.length = s.cfg.nInputs) (hf : FloorInContract f) (hc : s.cnt[lane]? = some c)
    (hb : samples[lane]? = some b) :
    ∃ tr d, laneStep s.cfg.debounceFloor c b = some (tr, d) ∧ (advance s).cnt[lane]? = some d ∧
      (advance s).out.transAt lane = some tr ∧ (advance s).resetDone = true ∧ (advance s).pending = rest := by
  obtain ⟨lanes, hpanel, hexec⟩ := execPoll_of_inv (linear := linear) (rot := rot) (bl := bl) (br := br)
    (hinv.withPending rest) hr hf hn
  obtain ⟨-, -, hlane⟩ := panelStep_ok hpanel
  obtain ⟨⟨tr, d⟩, hstep, hres⟩ := hlane lane c b hc hb
  rw [advance_of_next ((step_presentInstr hpending (decide_eq_true hn)).trans hexec)]
  exact ⟨tr, d, hstep, by simp [hres], by simp [transAt_ofPoll, hres], hr, rfl⟩

end Sys2Proof.Machine

/-- Settles O11: DEB reads `cfg`, `reset_done` and one counter, sets that counter, and drives that lane's Transition. -/
theorem debTouchesItsLaneOnly : Obligations.DebTouchesItsLaneOnly := by
  unfold Obligations.DebTouchesItsLaneOnly
  intro lane b s t h
  rw [laneOp_exec] at h
  obtain ⟨hl, hr, hn, c, tr, d, hc, hstep, rfl⟩ := debounceLane_next h
  refine ⟨rfl, by simp, fun j hj => ⟨List.getElem?_set_ne hj.symm, transAt_ofLane_ne hj tr⟩,
    fun s' hcfg hdone hcnt => ?_⟩
  have hc' := hcnt.trans hc
  obtain ⟨hlt, -⟩ := List.getElem?_eq_some_iff.1 hc
  obtain ⟨hlt', -⟩ := List.getElem?_eq_some_iff.1 hc'
  rw [laneOp_exec]
  refine ⟨_, debounceLane_eq (hcfg ▸ hl) (hdone.trans hr) (hcfg ▸ hn) hc' (hcfg ▸ hstep), ?_, ?_⟩
  · simp [hlt, hlt']
  · simp [hcfg]

/-- Settles O21: neither DEB reads or writes the other's counter, so both orders set the same two counters. -/
theorem laneOrderIsImmaterial : Obligations.LaneOrderIsImmaterial := by
  unfold Obligations.LaneOrderIsImmaterial
  intro i j a b s t hij h
  obtain ⟨u, hfirst, hsecond⟩ := execAll_pair_next h
  rw [laneOp_exec] at hfirst hsecond
  obtain ⟨hl, hr, hi, ci, tri, di, hci, hstepi, rfl⟩ := debounceLane_next hfirst
  obtain ⟨-, -, hj, cj, trj, dj, hcj, hstepj, rfl⟩ := debounceLane_next hsecond
  have hcj' : s.cnt[j]? = some cj := (List.getElem?_set_ne hij).symm.trans hcj
  have hfirst' := debounceLane_eq hl hr hj hcj' hstepj
  have hsecond' := debounceLane_eq (s := (s.writeCounter j dj).drive (Outputs.ofLane s.cfg.nInputs j trj)) hl hr hi
    ((List.getElem?_set_ne hij.symm).trans hci) hstepi
  rw [← laneOp_exec] at hfirst' hsecond'
  exact ⟨_, execAll_pair_of_next hfirst' hsecond', List.set_comm dj di hij.symm⟩

/-- Settles O33: what each part drives, as its own rule gives it. -/
theorem partsAloneDriveTheirOwnPorts : Obligations.PartsAloneDriveTheirOwnPorts := by
  unfold Obligations.PartsAloneDriveTheirOwnPorts
  refine ⟨fun lane b s t h => ?_, fun linear rot s t h => ?_, fun cmd brake f s t h => ?_⟩
  · rw [laneOp_exec] at h
    obtain ⟨-, -, hn, _, tr, _, -, -, rfl⟩ := debounceLane_next h
    exact ⟨tr, transAt_ofLane_self hn tr, fun j hj => transAt_ofLane_ne hj tr, rfl⟩
  · obtain ⟨-, rfl⟩ := execMix_next h
    rfl
  · obtain ⟨-, d, hd, rfl⟩ := execDuty_next h
    exact ⟨d, hd, rfl⟩

/-- Settles O34: a POLL's panel is the lanes' own steps, its commands are the mixer's, and its pairs are the mappers'. -/
theorem pollEqualsItsParts : Obligations.PollEqualsItsParts := by
  unfold Obligations.PollEqualsItsParts
  intro s t samples linear rot bl br f hinv h
  obtain ⟨hl, hr, hf, hn, lanes, hpanel, rfl⟩ := execPoll_next h
  obtain ⟨-, hlen, hlane⟩ := panelStep_ok hpanel
  obtain ⟨hleft, hright⟩ := mix_cmdInContract linear rot
  refine ⟨?_, fun lane b hb => ?_, ⟨_, exec_mix_of_legal hl linear rot, rfl, rfl⟩, fun c hc => ?_, fun c hc => ?_⟩
  · exact execAll_laneOps (done := []) hl hr rfl (by simpa using hinv.lanes.le) hpanel
  · obtain ⟨hlt, -⟩ := List.getElem?_eq_some_iff.1 hb
    have hc : s.cnt[lane]? = some s.cnt[lane] := List.getElem?_eq_getElem (hlen ▸ hlt)
    obtain ⟨⟨tr, d⟩, hstep, hres⟩ := hlane lane _ b hc hb
    obtain ⟨u, hu, -, -, htr⟩ := debounceLane_effect hl hr (hn ▸ hlt) hc hstep
    exact ⟨u, (laneOp_exec lane b s).trans hu, by simp [htr, transAt_ofPoll, hres]⟩
  · cases hc
    exact ⟨_, exec_duty_of_toDuty_ok hl (toDuty_of_inContract hleft hf bl), rfl⟩
  · cases hc
    exact ⟨_, exec_duty_of_toDuty_ok hl (toDuty_of_inContract hright hf br), rfl⟩

/-- Settles O37: by induction on the polls; each gives the lane its own step and leaves a state in which the next can
take place. -/
theorem panelRunsItsLanes : Obligations.PanelRunsItsLanes := by
  unfold Obligations.PanelRunsItsLanes
  intro s polls
  induction polls generalizing s with
  | nil =>
    intro rest lane c _ _ _ hc _ column hcolumn
    obtain rfl : column = [] := by simpa using hcolumn.symm
    exact ⟨[], c, rfl, hc, rfl⟩
  | cons i polls ih =>
    intro rest lane c hinv hr hpending hc hpolls column hcolumn
    obtain ⟨samples, linear, rot, bl, br, f, rfl, hn, hf⟩ := hpolls i List.mem_cons_self
    cases column with
    | nil => cases hcolumn
    | cons b column =>
      rw [List.map_cons, List.map_cons, List.cons.injEq] at hcolumn
      obtain ⟨hb, hcolumn⟩ := hcolumn
      obtain ⟨tr, d, hstep, hd, htr, hr', hpending'⟩ := advance_poll_lane hinv hr hpending hn hf hc hb
      obtain ⟨ts, e, hrun, he, hts⟩ := ih (advance s) rest lane d hinv.advance hr' hpending' hd
        (fun i hi => by simpa using hpolls i (List.mem_cons_of_mem _ hi)) column hcolumn
      rw [advance_cfg] at hrun
      refine ⟨tr :: ts, e, ?_, he, ?_⟩
      · simp only [laneRun, hstep, hrun, Option.map_some]
      · simp only [List.length_cons, observe, List.map_cons, htr, hts]
end

section
/-! PROOFS. A step by what is presented (43_core_step.md R134; 60_exceptions.md R153): a word, an edge or nothing,
and that the outputs of the step before are not read (10_state.md R30). -/

open Sys2Proof Sys2Proof.Machine

namespace Sys2Proof.Machine

/-! ## A step by what is presented -/

theorem step_word_of_ok {s : State} {f : Format} {w : Nat} {rest : List Presented} {i : Instr}
    (h : s.pending = .word f w :: rest) (hi : decode s.cfg.nInputs f w = .ok i) :
    step s = exec i (s.withPending rest) := by
  rw [step, h]
  simp only [hi]

theorem step_word_of_error {s : State} {f : Format} {w : Nat} {rest : List Presented} {e : DecodeError}
    (h : s.pending = .word f w :: rest) (he : decode s.cfg.nInputs f w = .error e) :
    step s = rejectWord e (s.withPending rest) := by
  rw [step, h]
  simp only [he]

theorem step_nil {s : State} (h : s.pending = []) : step s = awaitEnvironment s := by
  rw [step, h]

theorem clockEdge_of_poll {p : Ports} (hrst : p.rst = false) (hpoll : p.pollEn = true) (s : State) :
    clockEdge p s = execPoll p.samples p.linear p.rot p.brakeL p.brakeR p.pwmFloor s := by
  simp [clockEdge, hrst, hpoll]

theorem clockEdge_of_idle {p : Ports} {s : State} (hl : s.cfg.Legal) (hrst : p.rst = false) (hpoll : p.pollEn = false) :
    clockEdge p s = .next (s.drive (restingOutputs s.cfg.nInputs p)) := by
  simp [clockEdge, hrst, hpoll, idleEdge, onMachine_of_legal hl]

/-! ## The ports at an edge without a step (R134) -/

/-- Every lane reads 00 and the mixer follows its inputs. -/
theorem restingOutputs_ports (n : Nat) (p : Ports) :
    (∀ lane : Nat, lane < n → (restingOutputs n p).transAt lane = some .unchanged) ∧
      (restingOutputs n p).left = some (mix p.linear p.rot).left ∧
      (restingOutputs n p).right = some (mix p.linear p.rot).right :=
  ⟨fun lane hlane => by rw [transAt_restingOutputs, if_pos hlane], rfl, rfl⟩

/-- The mappers follow their inputs. -/
theorem restingOutputs_duty (n : Nat) {p : Ports} (hf : FloorInContract p.pwmFloor) :
    ∃ dl dr, (restingOutputs n p).dutyL = some dl ∧ (restingOutputs n p).dutyR = some dr ∧
      toDuty (mix p.linear p.rot).left p.brakeL p.pwmFloor = .ok dl ∧
      toDuty (mix p.linear p.rot).right p.brakeR p.pwmFloor = .ok dr := by
  obtain ⟨hleft, hright⟩ := mix_cmdInContract p.linear p.rot
  have hl := toDuty_of_inContract hleft hf p.brakeL
  have hr := toDuty_of_inContract hright hf p.brakeR
  exact ⟨_, _, congrArg Except.toOption hl, congrArg Except.toOption hr, hl, hr⟩

/-- A mapper whose floor is out of contract has no value (log 18). -/
theorem restingOutputs_duty_none (n : Nat) {p : Ports} (hf : ¬ FloorInContract p.pwmFloor) :
    (restingOutputs n p).dutyL = none ∧ (restingOutputs n p).dutyR = none := by
  obtain ⟨hleft, hright⟩ := mix_cmdInContract p.linear p.rot
  exact ⟨congrArg Except.toOption (toDuty_of_not_floorInContract hleft hf p.brakeL),
    congrArg Except.toOption (toDuty_of_not_floorInContract hright hf p.brakeR)⟩

/-! ## The outputs are not state (R30) -/

/-- `k` answers the same whatever the outputs of the step before were. -/
def OutputBlind (k : State → Result) : Prop := ∀ (s : State) (o : Outputs), k (s.drive o) = k s

theorem exec_outputBlind (i : Instr) : OutputBlind (exec i) := by
  intro s o
  cases i with
  | debS1 lane => rfl
  | debS0 lane => rfl
  | mix linear rot => rfl
  | duty cmd brake pwmFloor => rfl
  | poll samples linear rot brakeL brakeR pwmFloor => rfl
  | reset => rfl

theorem clockEdge_outputBlind (p : Ports) : OutputBlind (clockEdge p) := fun _ _ => rfl

theorem step_outputBlind : OutputBlind step := by
  intro s o
  cases hpending : s.pending with
  | nil =>
    rw [step_nil hpending, step_nil (s := s.drive o) hpending]
    rfl
  | cons p rest =>
    cases p with
    | edge p =>
      rw [step_edge hpending, step_edge (s := s.drive o) hpending]
      exact clockEdge_outputBlind p (s.withPending rest) o
    | word f w =>
      cases hdec : decode s.cfg.nInputs f w with
      | ok i =>
        rw [step_word_of_ok hpending hdec, step_word_of_ok (s := s.drive o) hpending hdec]
        exact exec_outputBlind i (s.withPending rest) o
      | error e =>
        rw [step_word_of_error hpending hdec, step_word_of_error (s := s.drive o) hpending hdec]
        rfl

end Sys2Proof.Machine

/-- Settles O5: `step` decodes what stands first in the list and does it, or rejects it. -/
theorem stepRunsDecodedWord : Obligations.StepRunsDecodedWord := by
  unfold Obligations.StepRunsDecodedWord
  intro s f w rest hpending
  refine ⟨fun i hi => step_word_of_ok hpending hi, fun e he hl => ?_⟩
  rw [step_word_of_error hpending he, rejectWord, onMachine_of_legal (s := s.withPending rest) hl]

/-- Settles O8: with nothing presented a legal block waits. -/
theorem countersHoldWhileNothingIsPresented : Obligations.CountersHoldWhileNothingIsPresented := by
  unfold Obligations.CountersHoldWhileNothingIsPresented
  intro s hl hpending
  rw [step_nil hpending, awaitEnvironment, onMachine_of_legal hl]
  rfl

/-- Settles O54: the edge resets and drives the resting outputs. -/
theorem resetEdgeOutputs : Obligations.ResetEdgeOutputs := by
  unfold Obligations.ResetEdgeOutputs
  intro s p rest hl hpending hrst
  obtain ⟨htrans, hleft, hright⟩ := restingOutputs_ports s.cfg.nInputs p
  exact ⟨_, (step_edge hpending).trans (clockEdge_of_rst (s := s.withPending rest) hl hrst), htrans, hleft, hright,
    restingOutputs_duty _, restingOutputs_duty_none _⟩

/-- Settles O7: with `poll_en` the edge is POLL on its ports; without, it only drives the resting outputs. -/
theorem clockEdgeStepsOrHolds : Obligations.ClockEdgeStepsOrHolds := by
  unfold Obligations.ClockEdgeStepsOrHolds
  intro s p rest hl hpending hrst
  obtain ⟨htrans, hleft, hright⟩ := restingOutputs_ports s.cfg.nInputs p
  refine ⟨fun hpoll => (step_edge hpending).trans (clockEdge_of_poll hrst hpoll _), fun hpoll => ?_⟩
  exact ⟨_, (step_edge hpending).trans (clockEdge_of_idle (s := s.withPending rest) hl hrst hpoll), rfl, htrans, hleft,
    hright, restingOutputs_duty _⟩

/-- Settles O49: every operation and edge is blind to the outputs, so `step` is. -/
theorem outputsAreNotState : Obligations.OutputsAreNotState := by
  unfold Obligations.OutputsAreNotState
  intro s o
  exact step_outputBlind s o
end

section
/-! PROOFS. The one fault and the records (60_exceptions.md R141, R142), and what every operation leaves alone. -/

open Sys2Proof Sys2Proof.Machine

namespace Sys2Proof.Machine

/-! ## The one fault (R142) -/

theorem debounceLane_fault {lane : Nat} {b : Bool} {s : State} {f : Fault} (h : debounceLane lane b s = .fault f) :
    f = .notReset ∧ s.resetDone = false := by
  rcases onceReset_fault (onMachine_fault h).2 with hfault | hbody
  · exact hfault
  · split at hbody
    · cases hbody
    · split at hbody
      · cases hbody
      · cases hbody

theorem execPoll_fault {samples : List Bool} {linear rot : Axis} {bl br : Bool} {pwmFloor : Level} {s : State} {f : Fault}
    (h : execPoll samples linear rot bl br pwmFloor s = .fault f) : f = .notReset ∧ s.resetDone = false := by
  rcases onceReset_fault (onMachine_fault h).2 with hfault | hbody
  · exact hfault
  · split at hbody
    · cases hbody
    · split at hbody
      · cases hbody
      · split at hbody
        · cases hbody
        · dsimp only at hbody
          split at hbody <;> cases hbody

/-- Only a step of debounce lanes faults, and only before the first reset. -/
theorem exec_fault {i : Instr} {s : State} {f : Fault} (h : exec i s = .fault f) :
    f = .notReset ∧ s.resetDone = false ∧ i.stepsLanes = true := by
  cases i with
  | debS1 lane =>
    obtain ⟨hf, hr⟩ := debounceLane_fault (b := true) h
    exact ⟨hf, hr, rfl⟩
  | debS0 lane =>
    obtain ⟨hf, hr⟩ := debounceLane_fault (b := false) h
    exact ⟨hf, hr, rfl⟩
  | mix linear rot => cases (onMachine_fault h).2
  | duty cmd brake pwmFloor =>
    obtain ⟨-, hbody⟩ := onMachine_fault h
    split at hbody
    · cases hbody
    · cases hbody
  | poll samples linear rot brakeL brakeR pwmFloor =>
    obtain ⟨hf, hr⟩ := execPoll_fault h
    exact ⟨hf, hr, rfl⟩
  | reset => cases (onMachine_fault h).2

theorem step_faultRecord {s t : State} (h : step s = .next t) : t.faultRecord = s.faultRecord := by
  rw [(step_next_frame h).2]

/-- The record, once made, stays (R142). -/
theorem advance_faultRecord {s : State} {f : Fault} (h : s.faultRecord = some f) :
    (advance s).faultRecord = some f :=
  advance_cases (P := fun t => t.faultRecord = some f) (fun _ ht => (step_faultRecord ht).trans h)
    (fun _ => by simp [h]) (fun _ => h)

/-- The mark keeps the reason it was first set for (log 8). -/
theorem advance_refusalMark {s : State} {r : Refusal} (h : s.refusalMark = some r) :
    (advance s).refusalMark = some r :=
  advance_cases (P := fun t => t.refusalMark = some r) (fun _ ht => (step_refusalMark ht).trans h)
    (fun _ => h) (fun _ => by simp [h])

/-! ## What an operation leaves of the counters -/

/-- MIX and DUTY, which step no lane, leave every counter. -/
theorem exec_cnt_of_not_stepsLanes {i : Instr} {s t : State} (h : exec i s = .next t) (hi : i.stepsLanes = false)
    (hne : i ≠ .reset) : t.cnt = s.cnt := by
  cases i with
  | debS1 lane => cases hi
  | debS0 lane => cases hi
  | mix linear rot =>
    obtain ⟨-, rfl⟩ := execMix_next h
    rfl
  | duty cmd brake pwmFloor =>
    obtain ⟨-, _, -, rfl⟩ := execDuty_next h
    rfl
  | poll samples linear rot brakeL brakeR pwmFloor => cases hi
  | reset => exact absurd rfl hne

/-- There stays one counter for every lane. -/
theorem exec_cnt_length {i : Instr} {s t : State} (h : exec i s = .next t) (hlen : s.cnt.length = s.cfg.nInputs) :
    t.cnt.length = s.cfg.nInputs := by
  cases i with
  | debS1 lane =>
    obtain ⟨-, -, -, _, _, _, -, -, rfl⟩ := debounceLane_next (b := true) h
    simpa using hlen
  | debS0 lane =>
    obtain ⟨-, -, -, _, _, _, -, -, rfl⟩ := debounceLane_next (b := false) h
    simpa using hlen
  | mix linear rot => exact exec_cnt_of_not_stepsLanes h rfl nofun ▸ hlen
  | duty cmd brake pwmFloor => exact exec_cnt_of_not_stepsLanes h rfl nofun ▸ hlen
  | poll samples linear rot brakeL brakeR pwmFloor =>
    obtain ⟨-, -, -, -, lanes, hpanel, rfl⟩ := execPoll_next h
    obtain ⟨hlanes, -, -⟩ := panelStep_ok hpanel
    simpa using hlanes.trans hlen
  | reset =>
    obtain ⟨-, rfl⟩ := execReset_next h
    simp

end Sys2Proof.Machine

/-- Settles O40: the reset guard is the one place a fault is raised; a step that goes through keeps the record, and
`advance` writes it only where it is empty. -/
theorem notResetIsTheOneFault : Obligations.NotResetIsTheOneFault := by
  unfold Obligations.NotResetIsTheOneFault
  refine ⟨fun s i => exec_of_not_reset, fun s i f => exec_fault, fun s f h => ?_, fun s f k h => ?_, fun s t h => ?_⟩
  · rw [advance_of_fault h]
    exact ⟨by simp, rfl, rfl⟩
  · exact advanceN_induct (P := fun t => t.faultRecord = some f) (fun _ => advance_faultRecord) k s h
  · rw [(exec_next_frame h).2]

/-- Settles O55: no step writes a mark that is set. -/
theorem firstRefusalReasonStays : Obligations.FirstRefusalReasonStays := by
  unfold Obligations.FirstRefusalReasonStays
  intro s r k h
  exact advanceN_induct (P := fun t => t.refusalMark = some r) (fun _ => advance_refusalMark) k s h

/-- Settles O51: the frame of every operation, `reset_done` and the counters by operation. -/
theorem operationFrame : Obligations.OperationFrame := by
  unfold Obligations.OperationFrame
  intro i s t h
  obtain ⟨-, hframe⟩ := exec_next_frame h
  refine ⟨exec_cfg h, by rw [hframe], by rw [hframe], by rw [hframe], exec_resetDone_of_ne_reset h,
    exec_cnt_of_not_stepsLanes h, fun hlen => ?_⟩
  rw [exec_cfg h]
  exact exec_cnt_length h hlen
end

section
/-! PROOFS. What holds of every reachable state (10_state.md R21) and that everything in contract completes
(60_exceptions.md R155). -/

open Sys2Proof Sys2Proof.Machine

namespace Sys2Proof.Machine

/-! ## The state after reset -/

/-- A block at power-up is, but for what it has in its counters and `reset_done`, one right after reset (R32, R161). -/
theorem clearCounters_powerUp (c : Config) :
    (State.powerUp c).clearCounters.drive Outputs.undriven = State.afterReset c := rfl

theorem afterReset_inv {c : Config} (hc : c.Legal) : (State.afterReset c).Inv := by
  rw [← clearCounters_powerUp]
  exact (State.Inv.clearCounters (s := State.powerUp c) hc).drive _

theorem chosen_legal : Config.chosen.Legal := by decide

/-! ## Everything in contract completes (R155) -/

theorem debounceLane_of_inv {s : State} {lane : Nat} (h : s.Inv) (hr : s.resetDone = true) (hlane : lane < s.cfg.nInputs)
    (b : Bool) : ∃ t, debounceLane lane b s = .next t := by
  have hlt : lane < s.cnt.length := h.lanes ▸ hlane
  exact ⟨_, debounceLane_eq h.legal hr hlane (List.getElem?_eq_getElem hlt)
    (laneStep_of_inRange (h.range hr _ (List.getElem_mem hlt)) b)⟩

/-- An operation in contract completes after a reset, and before it when it steps no lane. -/
theorem exec_completes {i : Instr} {s : State} (h : s.Inv) (hwf : i.wellFormed s.cfg.nInputs = true)
    (hi : i.inContract = true) (hr : s.resetDone = true ∨ i.stepsLanes = false) : ∃ t, exec i s = .next t := by
  cases i with
  | debS1 lane => exact debounceLane_of_inv h (hr.resolve_right nofun) (of_decide_eq_true hwf) true
  | debS0 lane => exact debounceLane_of_inv h (hr.resolve_right nofun) (of_decide_eq_true hwf) false
  | mix linear rot => exact ⟨_, exec_mix_of_legal h.legal linear rot⟩
  | duty cmd brake pwmFloor =>
    obtain ⟨hc, hf⟩ := Bool.and_eq_true_iff.1 hi
    exact ⟨_, exec_duty_of_toDuty_ok h.legal (toDuty_of_inContract (of_decide_eq_true hc) (of_decide_eq_true hf) brake)⟩
  | poll samples linear rot brakeL brakeR pwmFloor =>
    obtain ⟨_, -, hexec⟩ := execPoll_of_inv (linear := linear) (rot := rot) (bl := brakeL) (br := brakeR) h
      (hr.resolve_right nofun) (of_decide_eq_true hi) (of_decide_eq_true hwf)
    exact ⟨_, hexec⟩
  | reset => exact ⟨_, execReset_of_legal h.legal⟩

/-- An edge with its ports in contract completes after a reset, and before it when no step takes place. -/
theorem clockEdge_completes {p : Ports} {s : State} (h : s.Inv) (hn : p.samples.length = s.cfg.nInputs)
    (hf : FloorInContract p.pwmFloor) (hr : s.resetDone = true ∨ ¬ (p.rst = false ∧ p.pollEn = true)) :
    ∃ t, clockEdge p s = .next t := by
  cases hrst : p.rst with
  | true => exact ⟨_, clockEdge_of_rst h.legal hrst⟩
  | false =>
    cases hpoll : p.pollEn with
    | true =>
      rw [clockEdge_of_poll hrst hpoll]
      obtain ⟨_, -, hexec⟩ := execPoll_of_inv (linear := p.linear) (rot := p.rot) (bl := p.brakeL) (br := p.brakeR) h
        (hr.resolve_right fun hnot => hnot ⟨hrst, hpoll⟩) hf hn
      exact ⟨_, hexec⟩
    | false => exact ⟨_, clockEdge_of_idle h.legal hrst hpoll⟩

end Sys2Proof.Machine

/-- Settles O44: each operation writes counters in [F, 1] only. -/
theorem stepKeepsCountersInRange : Obligations.StepKeepsCountersInRange := by
  unfold Obligations.StepKeepsCountersInRange
  exact fun s t hinv => hinv.step

/-- Settles O56: a step that goes through keeps the invariant, and a record of a fault or refusal writes no counter. -/
theorem advanceKeepsCountersInRange : Obligations.AdvanceKeepsCountersInRange := by
  unfold Obligations.AdvanceKeepsCountersInRange
  exact fun s hinv => ⟨hinv.advance, advance_cfg s⟩

/-- Settles O46: the invariant and the configuration hold at power-up, and what is presented and every step keep them. -/
theorem reachableStatesMeetTheBounds : Obligations.ReachableStatesMeetTheBounds := by
  unfold Obligations.ReachableStatesMeetTheBounds
  intro c s hc hreach
  refine ⟨hreach.inv hc, ?_⟩
  induction hreach with
  | powerUp => rfl
  | present _ _ _ ih => exact ih
  | advance s _ ih => exact (advance_cfg s).trans ih

/-- Settles O45: a RESET at power-up leaves the state after reset, whose counters are 0. -/
theorem resetMeetsTheCounterBounds : Obligations.ResetMeetsTheCounterBounds := by
  unfold Obligations.ResetMeetsTheCounterBounds
  exact ⟨afterReset_inv chosen_legal, fun c hc =>
    ⟨afterReset_inv hc, execReset_of_legal (s := State.powerUp c) hc⟩⟩

/-- Settles O48: what is presented in contract decodes to a well-formed operation, or is an edge with its ports in
contract, and either completes. -/
theorem inContractStepCompletes : Obligations.InContractStepCompletes := by
  unfold Obligations.InContractStepCompletes
  intro s p rest hinv hpending hp hready
  have hinv' := hinv.withPending rest
  cases p with
  | word f w =>
    obtain ⟨i, hdec, hi⟩ := hp
    obtain ⟨-, hwf⟩ := encodeOfDecode _ f w i hdec
    have hlanes : s.resetDone = true ∨ i.stepsLanes = false :=
      hready.imp_right fun hno => Bool.eq_false_iff.2 fun hsteps => hno ⟨i, hdec, hsteps⟩
    obtain ⟨t, ht⟩ := exec_completes hinv' hwf hi hlanes
    refine ⟨t, (step_word_of_ok hpending hdec).trans ht, ?_⟩
    rw [(exec_next_frame ht).2]
    rfl
  | edge p =>
    obtain ⟨hn, hf⟩ := hp
    obtain ⟨t, ht⟩ := clockEdge_completes hinv' hn hf hready
    refine ⟨t, (step_edge hpending).trans ht, ?_⟩
    rw [(clockEdge_next_frame ht).2]
    rfl
end

section
/-! PROOFS. The values on the ports: no step drives a command out of range (30_encoding.md R54), and a tied,
in-contract floor is never refused (00_scope.md R8). -/

open Sys2Proof Sys2Proof.Machine

namespace Sys2Proof.Machine

/-! ## What the ports carry (R54) -/

/-- Ports that carry the mixer's pair, or no command. -/
theorem commandsInRange_of_mix {o : Outputs} {linear rot : Axis}
    (hl : o.left = none ∨ o.left = some (mix linear rot).left)
    (hr : o.right = none ∨ o.right = some (mix linear rot).right) : o.CommandsInRange := by
  obtain ⟨hleft, hright⟩ := mix_commandInRange linear rot
  constructor
  · rintro c hc
    rcases hl with hl | hl
    · cases hl.symm.trans hc
    · cases hl.symm.trans hc
      exact hleft
  · rintro c hc
    rcases hr with hr | hr
    · cases hr.symm.trans hc
    · cases hr.symm.trans hc
      exact hright

theorem commandsInRange_of_undriven {o : Outputs} (hl : o.left = none) (hr : o.right = none) : o.CommandsInRange :=
  commandsInRange_of_mix (linear := 0) (rot := 0) (.inl hl) (.inl hr)

theorem exec_commandsInRange {i : Instr} {s t : State} (h : exec i s = .next t) : t.out.CommandsInRange := by
  cases i with
  | debS1 lane =>
    obtain ⟨-, -, -, _, _, _, -, -, rfl⟩ := debounceLane_next (b := true) h
    exact commandsInRange_of_undriven rfl rfl
  | debS0 lane =>
    obtain ⟨-, -, -, _, _, _, -, -, rfl⟩ := debounceLane_next (b := false) h
    exact commandsInRange_of_undriven rfl rfl
  | mix linear rot =>
    obtain ⟨-, rfl⟩ := execMix_next h
    exact commandsInRange_of_mix (.inr rfl) (.inr rfl)
  | duty cmd brake pwmFloor =>
    obtain ⟨-, _, -, rfl⟩ := execDuty_next h
    exact commandsInRange_of_undriven rfl rfl
  | poll samples linear rot brakeL brakeR pwmFloor =>
    obtain ⟨-, -, -, -, _, -, rfl⟩ := execPoll_next h
    exact commandsInRange_of_mix (.inr rfl) (.inr rfl)
  | reset =>
    obtain ⟨-, rfl⟩ := execReset_next h
    exact commandsInRange_of_undriven rfl rfl

theorem clockEdge_commandsInRange {p : Ports} {s t : State} (h : clockEdge p s = .next t) :
    t.out.CommandsInRange := by
  rcases clockEdge_next h with ⟨-, -, rfl⟩ | ⟨-, -, hpoll⟩ | ⟨-, -, -, rfl⟩
  · exact commandsInRange_of_mix (.inr rfl) (.inr rfl)
  · exact exec_commandsInRange (i := .poll ..) hpoll
  · exact commandsInRange_of_mix (.inr rfl) (.inr rfl)

/-! ## `PwmFloorOutOfRange` (R111) -/

theorem configRefusal_ne_pwmFloorOutOfRange (c : Config) : configRefusal c ≠ some .pwmFloorOutOfRange := by
  intro h
  rcases configRefusal_eq_some h with ⟨hr, -⟩ | ⟨hr, -⟩
  · cases hr
  · cases hr

theorem debounceLane_ne_pwmFloorOutOfRange (lane : Nat) (b : Bool) (s : State) :
    debounceLane lane b s ≠ .refused .pwmFloorOutOfRange := by
  intro h
  rcases debounceLane_refused h with hcfg | ⟨hr, -⟩ | ⟨hr, -⟩
  · exact configRefusal_ne_pwmFloorOutOfRange _ hcfg
  · cases hr
  · cases hr

theorem onMachine_ne_pwmFloorOutOfRange {k : Result} (hk : k ≠ .refused .pwmFloorOutOfRange) (s : State) :
    onMachine s k ≠ .refused .pwmFloorOutOfRange := by
  intro h
  rcases onMachine_refused h with hcfg | ⟨-, hbody⟩
  · exact configRefusal_ne_pwmFloorOutOfRange _ hcfg
  · exact hk hbody

theorem onMachine_next_ne_pwmFloorOutOfRange (s t : State) :
    onMachine s (.next t) ≠ .refused .pwmFloorOutOfRange :=
  onMachine_ne_pwmFloorOutOfRange (k := .next t) nofun s

theorem rejectWord_ne_pwmFloorOutOfRange (e : DecodeError) (s : State) :
    rejectWord e s ≠ .refused .pwmFloorOutOfRange :=
  onMachine_ne_pwmFloorOutOfRange (k := .refused (.undecodable e)) nofun s

/-- POLL is refused for its floor only when that is out of contract, whatever its samples. -/
theorem execPoll_ne_pwmFloorOutOfRange {samples : List Bool} {linear rot : Axis} {bl br : Bool} {f : Level}
    (hf : FloorInContract f) (s : State) :
    execPoll samples linear rot bl br f s ≠ .refused .pwmFloorOutOfRange := by
  intro h
  rcases onMachine_refused h with hcfg | ⟨hlegal, hguarded⟩
  · exact configRefusal_ne_pwmFloorOutOfRange _ hcfg
  · obtain ⟨hdone, hbody⟩ := onceReset_refused hguarded
    by_cases hn : samples.length = s.cfg.nInputs
    · cases hp : panelStep s.cfg.debounceFloor s.cnt samples with
      | ok lanes =>
        rw [execPoll_eq hlegal hdone hf hn hp] at h
        cases h
      | error e =>
        rw [execPoll_of_panelStep_error hlegal hdone hf hn hp] at h
        cases h
        rcases panelStep_error_cases hp with he | he
        · cases he
        · cases he
    · rw [if_neg (not_not.2 hf), if_pos hn] at hbody
      cases hbody

/-- The `pwm_floor` an operation carries, if it carries one, is this one. -/
def CarriesFloor (fl : Level) : Instr → Prop
  | .duty _ _ f => f = fl
  | .poll _ _ _ _ _ f => f = fl
  | _ => True

theorem exec_ne_pwmFloorOutOfRange {i : Instr} {fl : Level} (hfl : FloorInContract fl) (hi : CarriesFloor fl i)
    (s : State) : exec i s ≠ .refused .pwmFloorOutOfRange := by
  intro h
  cases i with
  | debS1 lane => exact debounceLane_ne_pwmFloorOutOfRange lane true s h
  | debS0 lane => exact debounceLane_ne_pwmFloorOutOfRange lane false s h
  | mix linear rot => exact onMachine_next_ne_pwmFloorOutOfRange _ _ h
  | duty cmd brake pwmFloor =>
    obtain rfl : pwmFloor = fl := hi
    rcases execDuty_refused h with hcfg | ⟨hr, -⟩ | ⟨-, hf⟩
    · exact configRefusal_ne_pwmFloorOutOfRange _ hcfg
    · cases hr
    · exact hf hfl
  | poll samples linear rot brakeL brakeR pwmFloor =>
    obtain rfl : pwmFloor = fl := hi
    exact execPoll_ne_pwmFloorOutOfRange hfl s h
  | reset => exact onMachine_next_ne_pwmFloorOutOfRange _ _ h

theorem clockEdge_ne_pwmFloorOutOfRange {p : Ports} (hf : FloorInContract p.pwmFloor) (s : State) :
    clockEdge p s ≠ .refused .pwmFloorOutOfRange := by
  unfold clockEdge
  split
  · exact onMachine_next_ne_pwmFloorOutOfRange _ _
  · split
    · exact execPoll_ne_pwmFloorOutOfRange hf s
    · exact onMachine_next_ne_pwmFloorOutOfRange _ _

/-- What a tied environment presents as a word carries the tied floor (R8). -/
theorem carriesFloor_of_tied {pwmMin : Level} {s : State} {f : Format} {w : Nat} {rest : List Presented} {i : Instr}
    (h : FloorTied pwmMin s) (hpending : s.pending = .word f w :: rest) (hi : decode s.cfg.nInputs f w = .ok i) :
    CarriesFloor pwmMin i := by
  have hword := h (.word f w) (by simp [hpending])
  simp only [hi] at hword
  cases i with
  | debS1 lane => trivial
  | debS0 lane => trivial
  | mix linear rot => trivial
  | duty cmd brake pwmFloor => exact hword
  | poll samples linear rot brakeL brakeR pwmFloor => exact hword
  | reset => trivial

end Sys2Proof.Machine

/-- Settles O47: the ports carry the mixer's pair or no command. -/
theorem noStepDrivesCommandOutOfRange : Obligations.NoStepDrivesCommandOutOfRange := by
  unfold Obligations.NoStepDrivesCommandOutOfRange
  intro s t h
  rcases step_next h with ⟨-, -, rfl⟩ | ⟨_, _, -, hedge⟩ | ⟨_, _, _, _, -, -, hexec⟩
  · exact commandsInRange_of_undriven rfl rfl
  · exact clockEdge_commandsInRange hedge
  · exact exec_commandsInRange hexec

/-- Settles O52: an edge and every word that decodes carry the tied floor, which is in contract; nothing else is refused
for a floor. -/
theorem tiedFloorIsNeverRefused : Obligations.TiedFloorIsNeverRefused := by
  unfold Obligations.TiedFloorIsNeverRefused
  intro s pwmMin hmin htied
  cases hpending : s.pending with
  | nil =>
    rw [step_nil hpending]
    exact onMachine_next_ne_pwmFloorOutOfRange _ _
  | cons p rest =>
    cases p with
    | edge p =>
      have hp : p.pwmFloor = pwmMin := htied (.edge p) (by simp [hpending])
      rw [step_edge hpending]
      exact clockEdge_ne_pwmFloorOutOfRange (hp ▸ hmin) _
    | word f w =>
      cases hdec : decode s.cfg.nInputs f w with
      | ok i =>
        rw [step_word_of_ok hpending hdec]
        exact exec_ne_pwmFloorOutOfRange hmin (carriesFloor_of_tied htied hpending hdec) _
      | error e =>
        rw [step_word_of_error hpending hdec]
        exact rejectWord_ne_pwmFloorOutOfRange e _
end
